-- ==== Sys2Proof/Word.lean ====
section
/-! DEFINITION. The widths of spec/10_state.md R13, R25, R26 and spec/00_scope.md R7, each under the name of what it holds.
Bit 0 is the least significant bit of every vector (R8, R35). -/

namespace Sys2Proof

/-- One entry of the glyph table (R32), and the `VAL` field (R51). -/
abbrev Byte := BitVec 8
/-- Levels on the eight segment lines: bits 0 to 6 are segments a to g, bit 7 the decimal point; 0 lights (R15). -/
abbrev SegLines := BitVec 8
/-- Levels on the four position-select lines: bit p is position p; 1 enables (R16). -/
abbrev SelLines := BitVec 4
/-- The scan counter (R14). -/
abbrev Cursor := BitVec 2
/-- The displayed value (R18), `VALUE_WIDTH = 16`. -/
abbrev Value := BitVec 16
/-- Milliseconds on the port `now` (R20, R116), `TS_WIDTH = 32`. -/
abbrev Time := BitVec 32
/-- A command word on the port `cmd` (R46), `CMD_WIDTH = 24`. -/
abbrev CmdWord := BitVec 24
/-- A response word on the port `rsp` (R60), `RSP_WIDTH = 16`. -/
abbrev RspWord := BitVec 16
/-- The event port, bit 0 `tick` and bit 1 `btn_fall` (R49). -/
abbrev EvBits := BitVec 2

end Sys2Proof
end

