-- ==== Sys2Proof/Syntax.lean ====
section
/-! DEFINITION. The eight host commands and two hardware events of spec/30_encoding.md R45, and the context each runs in
(spec/60_exceptions.md R113). -/

namespace Sys2Proof

/-- One step's operation: a row of spec/opcode_table.json each. -/
inductive Instr where
  /-- `NOP` (R95). -/
  | nop
  /-- `RENDER val, pos, dp` (R70): the digit value, the signed position, the decimal-point flag. -/
  | render (val : Byte) (pos : Int) (dp : Bool)
  /-- `SCANEN` (R73). -/
  | scanen
  /-- `SCANDIS` (R74). -/
  | scandis
  /-- `WRVAL value` (R76). -/
  | wrval (value : Value)
  /-- `TAKE` (R87). -/
  | take
  /-- `CLRP` (R88). -/
  | clrp
  /-- `RDSTAT` (R96). -/
  | rdstat
  /-- The event `TICK` (R72). -/
  | tick
  /-- The event `EDGE t` (R84): `t` is the port `now` in the cycle of the pulse. -/
  | edge (t : Time)
  deriving DecidableEq, Repr

/-- The two contexts that stand in place of privilege modes (R113). -/
inductive Context where
  /-- Host commands. -/
  | cooperative
  /-- The two hardware events. -/
  | interrupt
  deriving DecidableEq, Repr

/-- Which context an operation belongs to (R11, R31, R113). -/
def Instr.context : Instr → Context
  | .nop => .cooperative
  | .render _ _ _ => .cooperative
  | .scanen => .cooperative
  | .scandis => .cooperative
  | .wrval _ => .cooperative
  | .take => .cooperative
  | .clrp => .cooperative
  | .rdstat => .cooperative
  | .tick => .interrupt
  | .edge _ => .interrupt

/-- The mnemonic of R45. -/
def Instr.mnemonic : Instr → String
  | .nop => "NOP"
  | .render _ _ _ => "RENDER"
  | .scanen => "SCANEN"
  | .scandis => "SCANDIS"
  | .wrval _ => "WRVAL"
  | .take => "TAKE"
  | .clrp => "CLRP"
  | .rdstat => "RDSTAT"
  | .tick => "TICK"
  | .edge _ => "EDGE"

end Sys2Proof
end

