-- ==== Sys2Proof/WellFormed.lean ====
section
/-! DEFINITION. Which terms of `Instr` have an encoding. Every operand but the position has its field's width as its type; the
one check left is that the position fits the 4-bit two's complement field `POS` (spec/30_encoding.md R50, R57, R58). -/

namespace Sys2Proof

/-- The position fits the field `POS`: −8..7 (R50, R58). Whether it names a display position is another matter (R69). -/
def positionFits (pos : Int) : Bool := decide (-8 ≤ pos) && decide (pos ≤ 7)

/-- Well-formed: the operation can be put on the command port or the event port. -/
def Instr.wf : Instr → Bool
  | .nop => true
  | .render _ pos _ => positionFits pos
  | .scanen => true
  | .scandis => true
  | .wrval _ => true
  | .take => true
  | .clrp => true
  | .rdstat => true
  | .tick => true
  | .edge _ => true

end Sys2Proof
end

