-- ==== Sys2Proof/Decode.lean ====
section
/-! DEFINITION. The command decoder of spec/30_encoding.md R57, total on all 2^24 words, the event decoder of R49, and the
encoder written from the formats R46 to R48. -/

namespace Sys2Proof

/-- Why a word is no operation: the four classes of reserved word of R55, and an event port with no event on it. -/
inductive Reserved where
  /-- `OP` in 8..15 (R55). -/
  | opcode
  /-- A format-Z word with a nonzero bit in `cmd[19:0]` (R46, R55). -/
  | formatZ
  /-- A `RENDER` word with a nonzero bit in `cmd[15:13]` or `cmd[11:8]` (R47, R55). -/
  | render
  /-- A `WRVAL` word with a nonzero bit in `cmd[19:16]` (R48, R55). -/
  | wrval
  /-- The event port carries neither `tick` nor `btn_fall` (R49). -/
  | noEvent
  deriving DecidableEq, Repr

/-- `OP = cmd[23:20]` (R46). -/
def opField (w : CmdWord) : BitVec 4 := w.extractLsb' 20 4
/-- `POS = cmd[19:16]` (R47). -/
def posField (w : CmdWord) : BitVec 4 := w.extractLsb' 16 4
/-- `DP = cmd[12]` (R47, R52). -/
def dpField (w : CmdWord) : Bool := w.getLsbD 12
/-- `VAL = cmd[7:0]` (R47, R51). -/
def valField (w : CmdWord) : Byte := w.extractLsb' 0 8
/-- `VALUE = cmd[15:0]` (R48, R53). -/
def valueField (w : CmdWord) : Value := w.extractLsb' 0 16

/-- A format-Z command: its operand bits must be zero (R46). -/
def decodeZ (w : CmdWord) (i : Instr) : Except Reserved Instr :=
  if w.extractLsb' 0 20 = 0#20 then .ok i else .error .formatZ

/-- Format R (R47); the position is the field read as two's complement (R50). -/
def decodeRender (w : CmdWord) : Except Reserved Instr :=
  if w.extractLsb' 13 3 = 0#3 ∧ w.extractLsb' 8 4 = 0#4 then
    .ok (.render (valField w) (posField w).toInt (dpField w))
  else .error .render

/-- Format V (R48). -/
def decodeWrval (w : CmdWord) : Except Reserved Instr :=
  if w.extractLsb' 16 4 = 0#4 then .ok (.wrval (valueField w)) else .error .wrval

/-- The decoder of R57. -/
def decode (w : CmdWord) : Except Reserved Instr :=
  match (opField w).toNat with
  | 0 => decodeZ w .nop
  | 1 => decodeRender w
  | 2 => decodeZ w .scanen
  | 3 => decodeZ w .scandis
  | 4 => decodeWrval w
  | 5 => decodeZ w .take
  | 6 => decodeZ w .clrp
  | 7 => decodeZ w .rdstat
  | _ => .error .opcode

/-- The events on the event port in one cycle, in the order they execute: `EDGE` before `TICK` (R49, R111). -/
def decodeEvents (ev : EvBits) (now : Time) : List Instr :=
  (if ev.getLsbD 1 then [.edge now] else []) ++ (if ev.getLsbD 0 then [.tick] else [])

/-- How an operation reaches the block: a word on `cmd`, or a pulse on `ev` with the time on `now` (R45, R49). -/
inductive Encoded where
  | command (w : CmdWord)
  | event (ev : EvBits) (now : Time)
  deriving DecidableEq, Repr

/-- The operation that runs first of what is presented. -/
def decodeEncoded : Encoded → Except Reserved Instr
  | .command w => decode w
  | .event ev now =>
    match decodeEvents ev now with
    | [] => .error .noEvent
    | i :: _ => .ok i

/-- A format-Z word (R46). -/
def encodeZ (op : BitVec 4) : CmdWord := op ++ 0#20

/-- A format-R word, `POS = pos mod 16` (R47, R57). -/
def encodeRender (val : Byte) (pos : Int) (dp : Bool) : CmdWord :=
  0x1#4 ++ BitVec.ofInt 4 pos ++ 0#3 ++ BitVec.ofBool dp ++ 0#4 ++ val

/-- A format-V word (R48). -/
def encodeWrval (value : Value) : CmdWord := 0x4#4 ++ 0#4 ++ value

/-- The encoder: opcodes of R54, event bits of R49. A `TICK` reads no port, so `now` is written 0 beside it. -/
def encode : Instr → Encoded
  | .nop => .command (encodeZ 0x0#4)
  | .render val pos dp => .command (encodeRender val pos dp)
  | .scanen => .command (encodeZ 0x2#4)
  | .scandis => .command (encodeZ 0x3#4)
  | .wrval value => .command (encodeWrval value)
  | .take => .command (encodeZ 0x5#4)
  | .clrp => .command (encodeZ 0x6#4)
  | .rdstat => .command (encodeZ 0x7#4)
  | .tick => .event 0b01#2 0#32
  | .edge t => .event 0b10#2 t

/-- A row of the opcode map: a word `w` is the row's when `(w AND mask) = pattern` (R54). -/
structure OpcodeRow where
  mnemonic : String
  pattern : CmdWord
  mask : CmdWord
  deriving DecidableEq, Repr

/-- The opcode map of R54, kept beside the decoder so that the two can be held against each other. -/
def opcodeMap : List OpcodeRow :=
  [⟨"NOP", 0x000000#24, 0xFFFFFF#24⟩, ⟨"RENDER", 0x100000#24, 0xF0EF00#24⟩, ⟨"SCANEN", 0x200000#24, 0xFFFFFF#24⟩,
   ⟨"SCANDIS", 0x300000#24, 0xFFFFFF#24⟩, ⟨"WRVAL", 0x400000#24, 0xFF0000#24⟩, ⟨"TAKE", 0x500000#24, 0xFFFFFF#24⟩,
   ⟨"CLRP", 0x600000#24, 0xFFFFFF#24⟩, ⟨"RDSTAT", 0x700000#24, 0xFFFFFF#24⟩]

/-- The port word a table word stands for (log 13): 24 bits are a command word; 8 bits or fewer are the event port, `ev` in
bits 1:0, bits 7:2 zero, and `now` in the bits above bit 7. -/
def tableWordPorts (nbits w : Nat) : Option Encoded :=
  if nbits = 24 then some (.command (BitVec.ofNat 24 w))
  else if nbits ≤ 8 ∧ w % 256 < 4 then some (.event (BitVec.ofNat 2 w) (BitVec.ofNat 32 (w / 256)))
  else none

/-- The instruction this decoder reads from an opcode-table word. -/
def decodeTableWord (nbits w : Nat) : Option Instr :=
  match tableWordPorts nbits w with
  | some e => (decodeEncoded e).toOption
  | none => none

end Sys2Proof
end

