-- ==== Sys2Proof/Config.lean ====
section
/-! DEFINITION. What a build fixes (spec/00_scope.md R6, R7), as one record, and the two values the spec leaves open, as
constants without a body. The machine's own record is `Machine.build` (Machine/Build.lean). -/

namespace Sys2Proof

/-- The parameters of R6 and R7. Shared operations take this record, so another reading (`DP_POSITION = 1`, R78; precision
0, vector V27; the default glyph table, R63) is another argument. `CURSOR` has 2 bits and `SEL` 4 whatever `displayCount` is:
a record with another `displayCount` than 4 describes no machine of the spec (log 11). -/
structure Config where
  /-- `N`, the number of display positions. -/
  displayCount : Nat
  /-- `DECIMAL_PRECISION`. -/
  decimalPrecision : Nat
  /-- `TICK_PERIOD_MS`; no rule of a step reads it (R115). -/
  tickPeriodMs : Nat
  /-- `DEBOUNCE_WINDOW_MS`. -/
  debounceWindowMs : Nat
  /-- `BROADCAST`. -/
  broadcast : Int
  /-- `BLANK`, the digit value of the blank glyph. -/
  blank : Nat
  /-- `DIGIT_MAX`, the largest valid digit value. -/
  digitMax : Nat
  /-- `DP_POSITION`. -/
  dpPosition : Nat
  /-- `CURSOR_RESET`. -/
  cursorReset : Nat
  /-- `SEG_TABLE`: 17 entries, read-only (R32). -/
  segTable : Fin 17 → Byte

/-- Free value: the entries of the glyph table, which the source document does not give (R63, U3; log 1). -/
opaque Config.openSegTable : Fin 17 → Byte

/-- Free value: what the `rsp` port carries while `rsp_valid = 0` (R26, R125, U14; log 2), one value for each draw. -/
opaque Config.idleRsp : Nat → RspWord

/-- The glyph table of the machine: open, but for the one fact R64 allows a model to assume, that the blank glyph lights no
segment (bits 6:0 of entry 16 are all 1). -/
def Config.segTableOpen (v : Fin 17) : Byte :=
  if v = 16 then Config.openSegTable v ||| 0x7F#8 else Config.openSegTable v

/-- The default table of R63, from general knowledge (G1): used by tests only, never by the machine. -/
def Config.segTableDefault (v : Fin 17) : Byte :=
  ([0x40#8, 0x79#8, 0x24#8, 0x30#8, 0x19#8, 0x12#8, 0x02#8, 0x78#8, 0x00#8,
    0x10#8, 0x08#8, 0x03#8, 0x46#8, 0x21#8, 0x06#8, 0x0E#8, 0x7F#8] : List Byte)[v.val]

/-- The time in which every position is refreshed once, in milliseconds (R115, R135). -/
def Config.framePeriodMs (c : Config) : Nat := c.displayCount * c.tickPeriodMs

end Sys2Proof
end

