-- ==== Sys2Proof/Machine/Build.lean ====
section
/-! DEFINITION. The machine's own parameters: the values of spec/00_scope.md R6 and R7. -/

namespace Sys2Proof.Machine

/-- The build-time values of R6 and R7 (`DP_POSITION = 2` by C1, R78); the glyph table is the open one (log 1). -/
def build : Config where
  displayCount := 4
  decimalPrecision := 2
  tickPeriodMs := 30
  debounceWindowMs := 200
  broadcast := -1
  blank := 16
  digitMax := 16
  dpPosition := 2
  cursorReset := 3
  segTable := Config.segTableOpen

end Sys2Proof.Machine
end

