-- ==== Sys2Proof/Machine/State.lean ====
section
/-! DEFINITION. The state of spec/10_state.md R13, the ports of R25 and R26, and the reasons a step can stop. -/

namespace Sys2Proof.Machine

/-- The levels on the output pins `sel` and `seg` at one moment (R26, R67). -/
structure Pins where
  sel : SelLines
  seg : SegLines
  deriving DecidableEq, Repr

/-- The input ports in one clock cycle (R25; `clk` is the step itself). The port `now` shows the low 32 bits of `ms`
(`Inputs.now`). -/
structure Inputs where
  rst : Bool
  cmdValid : Bool
  cmd : CmdWord
  tick : Bool
  btnFall : Bool
  /-- The platform's millisecond count as an unbounded number, so that a wrap of the port `now` is told from a step back (R91, R116;
  log 7). -/
  ms : Nat
  deriving DecidableEq, Repr

/-- A cycle in which nothing is presented. -/
def Inputs.idle : Inputs where
  rst := false
  cmdValid := false
  cmd := 0
  tick := false
  btnFall := false
  ms := 0

/-- The output ports (R26). -/
structure Outputs where
  seg : SegLines
  sel : SelLines
  pressed : Bool
  rspValid : Bool
  rsp : RspWord
  deriving DecidableEq, Repr

/-- The whole architectural state and nothing else (R13). -/
structure Arch where
  cursor : Cursor
  seg : SegLines
  sel : SelLines
  scanEn : Bool
  dv : Value
  pressed : Bool
  lastTs : Time
  tsValid : Bool
  deriving DecidableEq, Repr

/-- The eight architectural elements of R13, then the response port, then the model's own fields: what is still to come on the
input ports, the pin states of the last operation, and the counter of the free draws. -/
structure State where
  /-- `CURSOR` (R14). -/
  cursor : Cursor
  /-- `SEG` (R15). -/
  seg : SegLines
  /-- `SEL` (R16). -/
  sel : SelLines
  /-- `SCAN_EN` (R17). -/
  scanEn : Bool
  /-- `DV` (R18). -/
  dv : Value
  /-- `PRESSED` (R19). -/
  pressed : Bool
  /-- `LAST_TS` (R20). -/
  lastTs : Time
  /-- `TS_VALID` (R21). -/
  tsValid : Bool
  /-- The response port in the current clock cycle: a word with `rsp_valid = 1`, or none with `rsp_valid = 0` (R26; log 10). -/
  rsp : Option RspWord
  /-- The pin states the phases of the last step's `renderDigit` drove, in order (R67; log 9). -/
  pinTrace : List Pins
  /-- What the input ports present in the current clock cycle and has not been executed yet (R25; log 3). -/
  inp : Inputs
  /-- The input ports in the clock cycles to come, the next one first (R27; log 3). -/
  feed : List Inputs
  /-- How many steps have been taken: picks the free value of the idle `rsp` port (log 2). -/
  draws : Nat
  deriving DecidableEq, Repr

/-- The machine never stops with a fault: "The block has no exception, no trap, no fault state, no error flag and no cause
register. Every operation completes." (R103). So there is no constructor (log 14). -/
inductive Fault
  deriving DecidableEq, Repr

/-- Why a step has no meaning. -/
inductive Refusal where
  /-- Raised by `step`, and by no operation, at a clock edge whose next cycle presents a lower millisecond count than this one: "A
  platform that lets `now` go backwards breaks 10_state.md rule R30 (b); the model refuses such a run" (R116, U9; log 7). Safe: the
  run is given no meaning. -/
  | nowWentBack
  /-- Raised by `exec`'s arm of an instruction without a meaning; safe. No arm of this model raises it. -/
  | notModelled (mnemonic : String)
  deriving DecidableEq, Repr

/-- The architectural part of a state. -/
def State.arch (s : State) : Arch where
  cursor := s.cursor
  seg := s.seg
  sel := s.sel
  scanEn := s.scanEn
  dv := s.dv
  pressed := s.pressed
  lastTs := s.lastTs
  tsValid := s.tsValid

/-- The state right after reset: the values of R13, no response (R122), nothing presented (log 3). -/
def State.reset : State where
  cursor := BitVec.ofNat 2 build.cursorReset
  seg := 0xFF
  sel := 0b0000
  scanEn := false
  dv := 0
  pressed := false
  lastTs := 0
  tsValid := false
  rsp := none
  pinTrace := []
  inp := Inputs.idle
  feed := []
  draws := 0

end Sys2Proof.Machine
end

