-- ==== Sys2Proof/Machine/Flags.lean ====
section
/-! DEFINITION. The flags are `SCAN_EN`, `PRESSED` and `TS_VALID` (spec/10_state.md R24): the comparison that decides whether an
edge sets two of them, and the words in which the host reads two of them. -/

namespace Sys2Proof.Machine

/-- Milliseconds since the last accepted edge, modulo 2^32 (R84, R85). -/
def edgeDelta (s : State) (t : Time) : Time := t - s.lastTs

/-- The debounce test: the first edge since reset passes, a later one if strictly more than the window has passed, unsigned
(R84, R85, R90). It does not read `PRESSED` (R86). -/
def edgeAccepted (c : Config) (s : State) (t : Time) : Bool :=
  !s.tsValid || decide (c.debounceWindowMs < (edgeDelta s t).toNat)

/-- `TAKE`'s response: the flag, zero-extended (R60, R87). -/
def takeWord (s : State) : RspWord := (BitVec.ofBool s.pressed).setWidth 16

/-- `RDSTAT`'s response: `SEG`, `SEL`, `CURSOR`, `SCAN_EN`, `PRESSED`, from bit 15 down (R60, R96). -/
def statusWord (s : State) : RspWord :=
  s.seg ++ s.sel ++ s.cursor ++ BitVec.ofBool s.scanEn ++ BitVec.ofBool s.pressed

end Sys2Proof.Machine
end

