-- ==== Sys2Proof/Machine/Operands.lean ====
section
/-! DEFINITION. The operand forms: the glyph lookup, the position, the segment levels, and the operands a tick computes for
itself. -/

namespace Sys2Proof.Machine

/-- `MemRead(v, 1)`: the glyph table, the one addressable store; indices 17 and above do not exist (R32, R34, R36). -/
def memRead (c : Config) (v : Nat) : Option Byte :=
  if h : v < 17 then some (c.segTable ⟨v, h⟩) else none

/-- `ENCODE(v)` (R61): evaluated by `renderDigit` only, and only for a valid `v`. -/
def encodeDigit (c : Config) (v : Byte) : Option Byte := memRead c v.toNat

/-- The one-hot vector with bit `p` set (R8). -/
def onehot (p : Nat) : SelLines := BitVec.twoPow 4 p

/-- The select lines a position enables, none for a position outside −1, 0..N−1 (R67, R69, R71). -/
def positionLines (c : Config) (pos : Int) : Option SelLines :=
  if pos = c.broadcast then some (BitVec.allOnes 4)
  else if 0 ≤ pos ∧ pos < c.displayCount then some (onehot pos.toNat)
  else none

/-- The eight segment levels: bit 7 is the complement of the decimal-point flag, bits 6:0 come from the table; bit 7 of the
table entry is not used (R62, R67). -/
def segLevels (dp : Bool) (m : Byte) : SegLines := BitVec.ofBool (!dp) ++ m.extractLsb' 0 7

/-- The decimal digit of weight `10^c`: `(DV / 10^c) mod 10` (R72, R77). -/
def digitAt (dv : Value) (cur : Cursor) : Byte := BitVec.ofNat 8 (dv.toNat / 10 ^ cur.toNat % 10)

/-- The decimal-point flag of position `p` (R78, R99). -/
def dpAt (c : Config) (p : Nat) : Bool := p == c.dpPosition && c.decimalPrecision != 0

/-- The cursor counts down and wraps from 0 to `N − 1` (R23, R72). -/
def nextCursor (c : Config) (cur : Cursor) : Cursor :=
  if cur = 0#2 then BitVec.ofNat 2 (c.displayCount - 1) else cur - 1#2

end Sys2Proof.Machine
end

