-- ==== Sys2Proof/Machine/Ops.lean ====
section
/-! DEFINITION. The operations the instructions share: writes of the state elements, `renderDigit`, the scan tick, the debounce
update, and what the ports do around an operation. The block takes no exception and returns from none (spec/60_exceptions.md
R103, R112, R114), so no operation here enters or leaves a handler: an event's own operation is all there is. -/

namespace Sys2Proof.Machine

/-! ## Writes -/

/-- Write the position latch; the pins show it at once (R16, R26). -/
def State.driveSel (s : State) (v : SelLines) : State :=
  { s with sel := v, pinTrace := s.pinTrace ++ [⟨v, s.seg⟩] }

/-- Write the segment latch; the pins show it at once (R15, R26). -/
def State.driveSeg (s : State) (v : SegLines) : State :=
  { s with seg := v, pinTrace := s.pinTrace ++ [⟨s.sel, v⟩] }

/-- Write the scan counter (R14). -/
def State.setCursor (s : State) (v : Cursor) : State := { s with cursor := v }

/-- Write `SCAN_EN` (R17). -/
def State.setScanEn (s : State) (b : Bool) : State := { s with scanEn := b }

/-- Write `DV`, all 16 bits at once (R18, R37). -/
def State.setDv (s : State) (v : Value) : State := { s with dv := v }

/-- Write `PRESSED` (R19). -/
def State.setPressed (s : State) (b : Bool) : State := { s with pressed := b }

/-- Drive the response port with `rsp_valid = 1` (R26, R60). -/
def State.respond (s : State) (w : RspWord) : State := { s with rsp := some w }

/-! ## The display -/

/-- `renderDigit(v, pos, dp)` (R67): no write for an invalid value (R68) or position (R69); else deactivate every position,
write the eight segment lines, activate. -/
def renderDigit (c : Config) (v : Byte) (pos : Int) (dp : Bool) (s : State) : State :=
  if v.toNat > c.digitMax then s
  else
    match positionLines c pos, encodeDigit c v with
    | some lines, some m => ((s.driveSel 0b0000#4).driveSeg (segLevels dp m)).driveSel lines
    | _, _ => s

/-- `scanTick` (R72): nothing while scanning is disabled (R75); else render the digit at the cursor, then count down. -/
def scanTick (c : Config) (s : State) : State :=
  if s.scanEn then
    (renderDigit c (digitAt s.dv s.cursor) s.cursor.toNat (dpAt c s.cursor.toNat) s).setCursor
      (nextCursor c s.cursor)
  else s

/-! ## The debounce filter -/

/-- `EDGE(t)` (R84): an accepted edge moves the timestamp and sets both flags; a dropped edge writes nothing. -/
def edgeUpdate (c : Config) (t : Time) (s : State) : State :=
  if edgeAccepted c s t then { s with lastTs := t, tsValid := true, pressed := true } else s

/-! ## The ports -/

/-- The value on `rsp`: the response, or a free value while `rsp_valid = 0` (R26, U14; log 2). -/
def State.rspPort (s : State) : RspWord := s.rsp.getD (Config.idleRsp s.draws)

/-- The output ports, driven continuously from the latches (R26). -/
def State.outputs (s : State) : Outputs where
  seg := s.seg
  sel := s.sel
  pressed := s.pressed
  rspValid := s.rsp.isSome
  rsp := s.rspPort

/-- The port `now`: the low 32 bits of the platform's count (R25, R116), so it wraps from 2^32 − 1 to 0 (R91). -/
def Inputs.now (p : Inputs) : Time := BitVec.ofNat 32 p.ms

/-- What the block does next with what its input ports present. -/
inductive Pending where
  /-- Reset is asserted. -/
  | reset
  /-- A command word waits. -/
  | command (w : CmdWord)
  /-- A button edge waits, at this time. -/
  | edge (t : Time)
  /-- A scan tick waits. -/
  | tick
  /-- Nothing is left of this cycle. -/
  | nothing
  deriving DecidableEq, Repr

/-- Reset shuts out everything else (R122); within a cycle the command runs first, then the edge, then the tick (R111). -/
def Inputs.pending (p : Inputs) : Pending :=
  if p.rst then .reset
  else if p.cmdValid then .command p.cmd
  else if p.btnFall then .edge p.now
  else if p.tick then .tick
  else .nothing

/-- The command is taken off the port; the response port is this command's from now on (R26, R45; log 10). -/
def State.acceptCommand (s : State) : State :=
  { s with inp.cmdValid := false, rsp := none, pinTrace := [], draws := s.draws + 1 }

/-- The edge pulse is taken off its port. The cycle goes on, and with it the response of the cycle's command. -/
def State.acceptEdge (s : State) : State :=
  { s with inp.btnFall := false, pinTrace := [], draws := s.draws + 1 }

/-- The tick pulse is taken off its port. -/
def State.acceptTick (s : State) : State :=
  { s with inp.tick := false, pinTrace := [], draws := s.draws + 1 }

/-- The rising clock edge that ends a cycle: the response port falls (R26) and the ports take what the next cycle presents; when
nothing more is to come they stay idle (R136; log 3). -/
def State.clockEdge (s : State) : State :=
  { s with inp := s.feed.headD s.inp, feed := s.feed.tail, rsp := none, pinTrace := [], draws := s.draws + 1 }

/-- The next cycle's millisecond count is below this one's, which no platform of R116 lets happen. -/
def State.nowGoesBack (s : State) : Bool := s.feed.head?.any fun c => decide (c.ms < s.inp.ms)

/-- A cycle with `rst` asserted: every element takes its reset value, the cycle's command, tick and edge are ignored and no
response is given (R121, R122). The millisecond count is "not resettable by the block" (R116), and what later cycles present is not
the block's to clear either. -/
def State.resetCycle (s : State) : State :=
  { State.reset with inp := { Inputs.idle with ms := s.inp.ms }, feed := s.feed, draws := s.draws + 1 }

/-- A reserved word is executed as nothing (R55, R97; log 5). -/
def ignoreReserved (s : State) : State := s

/-- The output side at the start of an operation: no response, no pin state driven yet. -/
def State.clearOutputs (s : State) : State := { s with rsp := none, pinTrace := [] }

/-- The first moment not before `ms` at which the port `now` shows `t`. -/
def nextShowing (ms : Nat) (t : Time) : Nat := ms + (t - BitVec.ofNat 32 ms).toNat

/-- Put an operation on the ports of the current cycle, alone. An edge's cycle is the first one at which `now` shows its time (DESIGN
CHOICE, log 7); a command or a tick, which do not read `now`, leave the count alone. -/
def Inputs.presenting (p : Inputs) : Encoded → Inputs
  | .command w => { p with rst := false, cmdValid := true, cmd := w, tick := false, btnFall := false }
  | .event ev now =>
    { p with
      rst := false, cmdValid := false, tick := ev.getLsbD 0, btnFall := ev.getLsbD 1
      ms := if ev.getLsbD 1 then nextShowing p.ms now else p.ms }

end Sys2Proof.Machine
end

