-- ==== Sys2Proof/Machine/Debounce.lean ====
section
/-! DEFINITION. The debounce filter's operations (spec/42_debounce_filter.md): `EDGE`, `TAKE`, `CLRP`. -/

namespace Sys2Proof.Machine

/-- `EDGE t` (R84), for every `t`: the wrap of `now` is the modular difference's (R91; log 7). -/
def execEdge (t : Time) (s : State) : Host.Outcome State Fault Refusal := .next (edgeUpdate build t s)

/-- `TAKE` (R87): the response is the flag before the clear, in one step (R42). -/
def execTake (s : State) : Host.Outcome State Fault Refusal :=
  .next ((s.respond (takeWord s)).setPressed false)

/-- `CLRP` (R88). -/
def execClrp (s : State) : Host.Outcome State Fault Refusal := .next (s.setPressed false)

end Sys2Proof.Machine
end

