-- ==== Sys2Proof/Machine/Display.lean ====
section
/-! DEFINITION. The Display Driver's operations (spec/41_display_driver.md): `RENDER`, `TICK`, `SCANEN`, `SCANDIS`, `WRVAL`. -/

namespace Sys2Proof.Machine

/-- `RENDER val, pos, dp` (R70), whether scanning is enabled or not; invalid operands make it a no-op (R68, R69; log 6). -/
def execRender (val : Byte) (pos : Int) (dp : Bool) (s : State) : Host.Outcome State Fault Refusal :=
  .next (renderDigit build val pos dp s)

/-- `SCANEN` (R73). -/
def execScanen (s : State) : Host.Outcome State Fault Refusal := .next (s.setScanEn true)

/-- `SCANDIS` (R74). -/
def execScandis (s : State) : Host.Outcome State Fault Refusal := .next (s.setScanEn false)

/-- `WRVAL value` (R76). -/
def execWrval (value : Value) (s : State) : Host.Outcome State Fault Refusal := .next (s.setDv value)

/-- `TICK` (R72, R75). -/
def execTick (s : State) : Host.Outcome State Fault Refusal := .next (scanTick build s)

end Sys2Proof.Machine
end

