-- ==== Sys2Proof/Machine/HostAccess.lean ====
section
/-! DEFINITION. The host access commands (spec/43_host_access.md): `NOP`, `RDSTAT`. -/

namespace Sys2Proof.Machine

/-- `NOP` (R95): nothing. -/
def execNop (s : State) : Host.Outcome State Fault Refusal := .next s

/-- `RDSTAT` (R96): the status word; nothing is written but the response port. -/
def execRdstat (s : State) : Host.Outcome State Fault Refusal := .next (s.respond (statusWord s))

end Sys2Proof.Machine
end

