-- ==== Sys2Proof/Machine/Dispatch.lean ====
section
/-! DEFINITION. One arm for each row of spec/opcode_table.json. -/

namespace Sys2Proof.Machine

def exec (i : Instr) (s : State) : Host.Outcome State Fault Refusal :=
  match i with
  | .nop => Sys2Proof.Machine.execNop s
  | .render val pos dp => Sys2Proof.Machine.execRender val pos dp s
  | .scanen => Sys2Proof.Machine.execScanen s
  | .scandis => Sys2Proof.Machine.execScandis s
  | .wrval value => Sys2Proof.Machine.execWrval value s
  | .take => Sys2Proof.Machine.execTake s
  | .clrp => Sys2Proof.Machine.execClrp s
  | .rdstat => Sys2Proof.Machine.execRdstat s
  | .tick => Sys2Proof.Machine.execTick s
  | .edge t => Sys2Proof.Machine.execEdge t s

end Sys2Proof.Machine
end

