-- ==== Sys2Proof/Machine/Step.lean ====
section
/-! DEFINITION. One step of the machine (spec/00_scope.md R10): the next operation of the current clock cycle in the order of
spec/60_exceptions.md R111, or the clock edge that ends the cycle. -/

namespace Sys2Proof.Machine

/-- A waiting command, edge or tick is taken off its port and executed as one atomic step (R10, R38); a cycle in which nothing is
left ends at the clock edge. A run in which the platform's millisecond count goes back is refused there (R116). -/
def step (s : State) : Host.Outcome State Fault Refusal :=
  match s.inp.pending with
  | .reset => .next s.resetCycle
  | .command w =>
    match decode w with
    | .ok i => exec i s.acceptCommand
    | .error _ => .next (ignoreReserved s.acceptCommand)
  | .edge t => exec (.edge t) s.acceptEdge
  | .tick => exec .tick s.acceptTick
  | .nothing => if s.nowGoesBack then .refused .nowWentBack else .next s.clockEdge

/-- Present an opcode-table word on the ports, so that the next step executes it (log 3, log 13). -/
def State.withFetchWord (s : State) (nbits w : Nat) : State :=
  match tableWordPorts nbits w with
  | some e => { s with inp := s.inp.presenting e }
  | none => s

end Sys2Proof.Machine
end

