-- ==== Sys2Proof/Machine/HostProgram.lean ====
section
/-! DEFINITION. The host's side of the command port, so that what the document says its software does can be replayed (R98): runs
of operations, the pseudo-instructions of R59, the Control Loop's iteration of R102, and the assembler of R58. None of this is
hardware. -/

namespace Sys2Proof.Machine

/-- Go on from a next state; a stop stays a stop. -/
def andThen (o : Host.Outcome State Fault Refusal) (f : State → Host.Outcome State Fault Refusal) :
    Host.Outcome State Fault Refusal :=
  match o with
  | .next s => f s
  | .fault r => .fault r
  | .refused r => .refused r

/-- One operation in the total order of steps (R38), its outputs its own. -/
def issue (i : Instr) (s : State) : Host.Outcome State Fault Refusal := exec i s.clearOutputs

/-- Operations one after the other (R38, R110): any interleaving of commands and events is such a list. -/
def runInstrs : List Instr → State → Host.Outcome State Fault Refusal
  | [], s => .next s
  | i :: is, s => andThen (issue i s) (runInstrs is)

/-! ## Pseudo-instructions -/

/-- `RENDERVALUE d3, d2, d1, d0` (R59, R99). -/
def renderValue (c : Config) (d3 d2 d1 d0 : Byte) : List Instr :=
  [.scandis, .render d3 3 (dpAt c 3), .render d2 2 (dpAt c 2), .render d1 1 (dpAt c 1), .render d0 0 (dpAt c 0), .scanen]

/-- `CONSUME` (R59, R100). -/
def consume : List Instr := [.take]

/-- `LAMPTEST` (R59, R101). -/
def lampTest : List Instr := [.render 8#8 (-1) true]

/-- `BLANKALL` (R59, R101). -/
def blankAll : List Instr := [.render 16#8 (-1) false]

/-- The two forms of the consume (R59, R100). -/
inductive ConsumeForm where
  /-- `CONSUME`, which is `TAKE`. -/
  | atomic
  /-- `CONSUME.NA`, with `between` falling between the host's read and its clear: the window of R128. -/
  | nonAtomic (between : List Instr)
  deriving DecidableEq, Repr

/-- A consume, then the host goes on knowing the flag it read, `rsp[0]` of the `TAKE` or of the `RDSTAT` (R100, R102). The host keeps
that bit: the `CLRP` of the non-atomic form gives no response. -/
def consumeThen (form : ConsumeForm) (k : Bool → State → Host.Outcome State Fault Refusal) (s : State) :
    Host.Outcome State Fault Refusal :=
  match form with
  | .atomic => andThen (runInstrs consume s) fun t => k (t.rspPort.getLsbD 0) t
  | .nonAtomic between =>
    andThen (issue .rdstat s) fun t =>
      andThen (runInstrs between t) fun u =>
        andThen (if t.rspPort.getLsbD 0 then issue .clrp u else .next u) (k (t.rspPort.getLsbD 0))

/-- `CONSUME.NA` alone (R59, R100). -/
def consumeNonAtomic (between : List Instr) (s : State) : Host.Outcome State Fault Refusal :=
  consumeThen (.nonAtomic between) (fun _ => .next) s

/-- `RENDERVALUE` of the four decimal digits of a value, most significant first (R99, R102). DESIGN CHOICE (log 17): where the formatted
string has other than four digits, the spec does not say what the host sends (91_not_in_source.md N5, U18); of a value of 10000 or
more this host sends the four low decimal digits, and to a value below 1000 it gives leading zeros. -/
def renderValueOf (c : Config) (v : Value) : List Instr :=
  renderValue c (digitAt v 3#2) (digitAt v 2#2) (digitAt v 1#2) (digitAt v 0#2)

/-- One iteration of the Control Loop (R102), with either consume at its head: `sample` is what the host would store if it reads a
press, `copy` its own copy of the displayed value if it reads none. -/
def controlLoop (c : Config) (form : ConsumeForm) (sample copy : Value) (s : State) : Host.Outcome State Fault Refusal :=
  consumeThen form
    (fun press => runInstrs (if press then .wrval sample :: renderValueOf c sample else renderValueOf c copy)) s

/-! ## Assembler -/

/-- A source line (R58, R59): operands as the integers the programmer writes. -/
inductive Line where
  | nop
  | render (val : Nat) (pos : Int) (dp : Nat)
  | scanen
  | scandis
  | wrval (value : Nat)
  | take
  | clrp
  | rdstat
  | tick
  | edge (t : Nat)
  | renderValue (d3 d2 d1 d0 : Nat)
  | consume
  | lampTest
  | blankAll
  deriving DecidableEq, Repr

/-- A digit operand of 0..255 (R58). -/
def asmDigit (v : Nat) : Option Byte := if v < 256 then some (BitVec.ofNat 8 v) else none

/-- The `RENDER` line: `val` 0..255, `pos` −8..7, `dp` 0 or 1 (R57, R58). -/
def asmRender (val : Nat) (pos : Int) (dp : Nat) : Option Instr :=
  if val < 256 ∧ positionFits pos ∧ dp < 2 then some (.render (BitVec.ofNat 8 val) pos (dp == 1)) else none

/-- Expand a line into operations; an operand out of its range is refused (R58). -/
def assemble (c : Config) : Line → Option (List Instr)
  | .nop => some [.nop]
  | .render val pos dp => (asmRender val pos dp).map ([·])
  | .scanen => some [.scanen]
  | .scandis => some [.scandis]
  | .wrval value => if value < 65536 then some [.wrval (BitVec.ofNat 16 value)] else none
  | .take => some [.take]
  | .clrp => some [.clrp]
  | .rdstat => some [.rdstat]
  | .tick => some [.tick]
  | .edge t => if t < 2 ^ 32 then some [.edge (BitVec.ofNat 32 t)] else none
  | .renderValue d3 d2 d1 d0 =>
    match asmDigit d3, asmDigit d2, asmDigit d1, asmDigit d0 with
    | some e3, some e2, some e1, some e0 => some (Sys2Proof.Machine.renderValue c e3 e2 e1 e0)
    | _, _, _, _ => none
  | .consume => some Sys2Proof.Machine.consume
  | .lampTest => some Sys2Proof.Machine.lampTest
  | .blankAll => some Sys2Proof.Machine.blankAll

end Sys2Proof.Machine
end

