-- ==== Sys2Proof/Safety.lean ====
section
/-! DEFINITION. What counts as a safe run, and the predicates the statements are written with. -/

namespace Sys2Proof.Machine

/-! ## Contract violations

The block ignores bad input or executes it as the rules say; the spec advises a model to mark such a program
(spec/93_implementation_defined.md U1, U4, U5, U6, U9). The step stops only on the last of these, a run that R116 refuses. -/

/-- What a host or a platform does that the spec tells it not to. -/
inductive Violation where
  /-- A `RENDER` with a digit value outside 0..16 (U1, R68). -/
  | digitOutOfRange
  /-- A `RENDER` with a position outside −1, 0..3 (U4, R69). -/
  | positionOutOfRange
  /-- A reserved command word (U5, R55). -/
  | reservedWord
  /-- A `RENDER` while scanning is enabled (U6, R126). -/
  | renderWhileScanning
  /-- The platform's millisecond count goes back at the coming clock edge; a wrap of the port `now` is no such thing (U9, R116). -/
  | timeWentBack
  deriving DecidableEq, Repr

/-- Mark `v` if `b`. -/
def markIf (b : Bool) (v : Violation) : List Violation := if b then [v] else []

/-- The marks of one operation in a state. -/
def instrViolations (c : Config) (s : State) : Instr → List Violation
  | .render val pos _ =>
    markIf (decide (c.digitMax < val.toNat)) .digitOutOfRange ++ markIf (positionLines c pos).isNone .positionOutOfRange ++
      markIf s.scanEn .renderWhileScanning
  | .nop => []
  | .scanen => []
  | .scandis => []
  | .wrval _ => []
  | .take => []
  | .clrp => []
  | .rdstat => []
  | .tick => []
  | .edge _ => []

/-- The marks of the next step. -/
def stepViolations (s : State) : List Violation :=
  match s.inp.pending with
  | .command w =>
    match decode w with
    | .ok i => instrViolations build s i
    | .error _ => [.reservedWord]
  | .edge t => instrViolations build s (.edge t)
  | .reset => []
  | .tick => []
  | .nothing => markIf s.nowGoesBack .timeWentBack

/-- A safe run: `k` steps, each without a mark. -/
def safeRun : Nat → State → Bool
  | 0, _ => true
  | k + 1, s =>
    (stepViolations s).isEmpty &&
      match step s with
      | .next t => safeRun k t
      | .fault _ => false
      | .refused _ => false

/-! ## The invariant -/

/-- The legal values of `SEL` at the end of a step (R16, R29 b). -/
def legalSel (v : SelLines) : Bool :=
  v == 0b0000#4 || v == 0b0001#4 || v == 0b0010#4 || v == 0b0100#4 || v == 0b1000#4 || v == 0b1111#4

/-- The segment lines a to g carry the glyph of table entry `v` (R29 e). -/
def showsGlyph (seg : SegLines) (v : Fin 17) : Prop :=
  seg.extractLsb' 0 7 = (build.segTable v).extractLsb' 0 7

/-- The invariants of R29 and R30 that speak of one state: `SEL` is legal; while no position is enabled nothing has been rendered
and every line is off; else the lines a to g carry a glyph of the table; no press is pending and no timestamp is held before
the first accepted edge. -/
structure State.Inv (s : State) : Prop where
  sel_legal : legalSel s.sel = true
  dark : s.sel = 0b0000#4 → s.seg = 0xFF#8
  lit : s.sel ≠ 0b0000#4 → ∃ v : Fin 17, showsGlyph s.seg v
  not_pressed : s.tsValid = false → s.pressed = false
  no_stamp : s.tsValid = false → s.lastTs = 0#32

/-! ## Words of the statements -/

/-- Operations of the Display Driver and the value register (R66, R83). -/
def isDisplay : Instr → Bool
  | .render _ _ _ => true
  | .tick => true
  | .scanen => true
  | .scandis => true
  | .wrval _ => true
  | .nop => false
  | .take => false
  | .clrp => false
  | .rdstat => false
  | .edge _ => false

/-- Operations of the debounce filter (R83). -/
def isDebounce : Instr → Bool
  | .edge _ => true
  | .take => true
  | .clrp => true
  | .nop => false
  | .render _ _ _ => false
  | .tick => false
  | .scanen => false
  | .scandis => false
  | .wrval _ => false
  | .rdstat => false

/-- A change on the pins is free of cross-talk if the segment lines change only while no position is enabled, before and after
(R67, R130). -/
def noCrossTalk (p q : Pins) : Prop := p.seg ≠ q.seg → p.sel = 0b0000#4 ∧ q.sel = 0b0000#4

/-- The output pins of a state. -/
def State.pins (s : State) : Pins where
  sel := s.sel
  seg := s.seg

end Sys2Proof.Machine
end

