-- ==== Sys2Proof/Certificates/Slice0/Obligations.lean ====
section
/-! DEFINITION. The statements about the model, from the numbered rules of spec/. Each docstring names its rules. -/

open Sys2Proof Sys2Proof.Machine

/-! ## Encoding -/

/-- Words written out from the formats R46 to R48 and the example column of R54 (vectors V1, V6, V11, V12, V44, V46 to V51) decode
to what they stand for, or are reserved. -/
def Obligations.SpecWordsDecodeAsWritten : Prop :=
  decode 0x000000#24 = .ok .nop ∧
  decode 0x121002#24 = .ok (.render 2#8 2 true) ∧
  decode 0x1F1008#24 = .ok (.render 8#8 (-1) true) ∧
  decode 0x140005#24 = .ok (.render 5#8 4 false) ∧
  decode 0x1E0005#24 = .ok (.render 5#8 (-2) false) ∧
  decode 0x200000#24 = .ok .scanen ∧
  decode 0x300000#24 = .ok .scandis ∧
  decode 0x4004D2#24 = .ok (.wrval 1234#16) ∧
  decode 0x500000#24 = .ok .take ∧
  decode 0x600000#24 = .ok .clrp ∧
  decode 0x700000#24 = .ok .rdstat ∧
  decode 0x800000#24 = .error .opcode ∧
  decode 0x200001#24 = .error .formatZ ∧
  decode 0x122002#24 = .error .render ∧
  decode 0x410000#24 = .error .wrval ∧
  decode 0xFFFFFF#24 = .error .opcode

/-- Decoding what the encoder writes gives the operation back, for every well-formed operation (R57: "Encoding is the inverse", the
spec's own inference). -/
def Obligations.EncodedInstrDecodesBack : Prop :=
  ∀ i : Instr, i.wf = true → decodeEncoded (encode i) = .ok i

/-- A word that decodes is the one word its operation is encoded as; the operation is well-formed and is a command: no word on the
command port starts an event (R57, R113). -/
def Obligations.DecodedWordEncodesBack : Prop :=
  ∀ (w : CmdWord) (i : Instr), decode w = .ok i → i.wf = true ∧ encode i = .command w ∧ i.context = .cooperative

/-- R54: a word is decoded as a row's command exactly if the row's mask and match select it, and no word is selected by two rows. -/
def Obligations.OpcodeMapSelectsTheCommand : Prop :=
  ∀ w : CmdWord,
    (w &&& 0xFFFFFF#24 = 0x000000#24 ↔ decode w = .ok .nop) ∧
    (w &&& 0xF0EF00#24 = 0x100000#24 ↔ ∃ v p d, decode w = .ok (.render v p d)) ∧
    (w &&& 0xFFFFFF#24 = 0x200000#24 ↔ decode w = .ok .scanen) ∧
    (w &&& 0xFFFFFF#24 = 0x300000#24 ↔ decode w = .ok .scandis) ∧
    (w &&& 0xFF0000#24 = 0x400000#24 ↔ ∃ v, decode w = .ok (.wrval v)) ∧
    (w &&& 0xFFFFFF#24 = 0x500000#24 ↔ decode w = .ok .take) ∧
    (w &&& 0xFFFFFF#24 = 0x600000#24 ↔ decode w = .ok .clrp) ∧
    (w &&& 0xFFFFFF#24 = 0x700000#24 ↔ decode w = .ok .rdstat) ∧
    ∀ r ∈ opcodeMap, ∀ q ∈ opcodeMap, w &&& r.mask = r.pattern → w &&& q.mask = q.pattern → r = q

/-- R47, R48, R50 to R53: the operands of a decoded `RENDER` or `WRVAL` are the fields of its word, the position read as two's
complement, the value whole. -/
def Obligations.DecodedOperandsAreTheFields : Prop :=
  (∀ (w : CmdWord) v p d, decode w = .ok (.render v p d) →
    v = w.extractLsb' 0 8 ∧ p = (w.extractLsb' 16 4).toInt ∧ d = w.getLsbD 12) ∧
  (∀ (w : CmdWord) v, decode w = .ok (.wrval v) → v = w.extractLsb' 0 16)

/-- R55, R97: which words are reserved, and that presenting one changes no state and gives no response. In the model's form of the
ports (logs 3 and 5) the word alone is taken off its port: the cycle's edge and tick and the later cycles stay presented. -/
def Obligations.ReservedWordsAreExecutedAsNothing : Prop :=
  ∀ w : CmdWord,
    ((∃ e, decode w = .error e) ↔
      8 ≤ (w.extractLsb' 20 4).toNat ∨
      (w.extractLsb' 20 4 ∈ [0x0#4, 0x2#4, 0x3#4, 0x5#4, 0x6#4, 0x7#4] ∧ w.extractLsb' 0 20 ≠ 0#20) ∨
      (w.extractLsb' 20 4 = 0x1#4 ∧ (w.extractLsb' 13 3 ≠ 0#3 ∨ w.extractLsb' 8 4 ≠ 0#4)) ∨
      (w.extractLsb' 20 4 = 0x4#4 ∧ w.extractLsb' 16 4 ≠ 0#4)) ∧
    ∀ (e : Reserved) (s : State), decode w = .error e →
      s.inp.rst = false → s.inp.cmdValid = true → s.inp.cmd = w →
      ∃ t, step s = .next t ∧ t.arch = s.arch ∧ t.rsp = none ∧ t.pinTrace = [] ∧
        t.inp = { s.inp with cmdValid := false } ∧ t.feed = s.feed

/-- R49: the events on the event port; with both bits set they are two. Their order is R111's. -/
def Obligations.EventPortCarriesItsEvents : Prop :=
  ∀ now : Time,
    decodeEvents 0b00#2 now = [] ∧ decodeEvents 0b01#2 now = [.tick] ∧
    decodeEvents 0b10#2 now = [.edge now] ∧ decodeEvents 0b11#2 now = [.edge now, .tick]

/-! ## The step -/

/-- A step with a command on the port is `exec` of the decoded command, at the state with the command taken off the port, the
response port and the pin trace cleared and the draw counter advanced. -/
def Obligations.StepRunsThePresentedCommand : Prop :=
  ∀ (s : State) (i : Instr), s.inp.rst = false → s.inp.cmdValid = true → decode s.inp.cmd = .ok i →
    step s = exec i
      { s with inp := { s.inp with cmdValid := false }, rsp := none, pinTrace := [], draws := s.draws + 1 }

/-- A step with no command left runs the edge of the cycle at the port's time; with no edge left either, the tick; the response of
the cycle stays. -/
def Obligations.StepRunsThePresentedEvent : Prop :=
  ∀ s : State, s.inp.rst = false → s.inp.cmdValid = false →
    (s.inp.btnFall = true → step s = exec (.edge s.inp.now)
      { s with inp := { s.inp with btnFall := false }, pinTrace := [], draws := s.draws + 1 }) ∧
    (s.inp.btnFall = false → s.inp.tick = true → step s = exec .tick
      { s with inp := { s.inp with tick := false }, pinTrace := [], draws := s.draws + 1 })

/-- R111: a command, an edge and a tick presented in one cycle are executed as three steps in that order, and nothing of the cycle
is left. -/
def Obligations.CycleRunsCommandThenEdgeThenTick : Prop :=
  ∀ (s : State) (i : Instr), s.inp.rst = false → s.inp.cmdValid = true → s.inp.btnFall = true → s.inp.tick = true →
    decode s.inp.cmd = .ok i →
    ∃ a b c, step s = .next a ∧ exec i s.acceptCommand = .next a ∧
      step a = .next b ∧ exec (.edge s.inp.now) a.acceptEdge = .next b ∧
      step b = .next c ∧ exec .tick b.acceptTick = .next c ∧
      c.inp = { s.inp with cmdValid := false, btnFall := false, tick := false } ∧ c.feed = s.feed

/-- The clock edge ends a cycle of which nothing is left: the response port falls, the next cycle's ports are taken, the state is
kept; an empty feed leaves the block idle (the model's choice, log 3). The premise is R116's on the platform. -/
def Obligations.ClockEdgeKeepsTheState : Prop :=
  ∀ s : State, s.inp.rst = false → s.inp.cmdValid = false → s.inp.btnFall = false → s.inp.tick = false →
    (∀ c rest, s.feed = c :: rest → s.inp.ms ≤ c.ms) →
    ∃ t, step s = .next t ∧ t.arch = s.arch ∧ t.rsp = none ∧ t.pinTrace = [] ∧
      (∀ c rest, s.feed = c :: rest → t.inp = c ∧ t.feed = rest) ∧ (s.feed = [] → t.inp = s.inp ∧ t.feed = [])

/-- R121, R122: while `rst` is asserted every element takes its reset value, whatever else the cycle presents is ignored, and there
is no response; the state at power-up holds the same values. No other step clears `TS_VALID` or sets `CURSOR` to anything but its
own value or one less. -/
def Obligations.ResetCycleForcesResetValues : Prop :=
  State.reset.arch = { cursor := 3#2, seg := 0xFF#8, sel := 0b0000#4, scanEn := false, dv := 0#16, pressed := false,
                       lastTs := 0#32, tsValid := false } ∧
  (∀ s : State, s.inp.rst = true →
    ∃ t, step s = .next t ∧ t.rsp = none ∧ t.inp.cmdValid = false ∧ t.inp.btnFall = false ∧ t.inp.tick = false ∧
      t.arch = { cursor := 3#2, seg := 0xFF#8, sel := 0b0000#4, scanEn := false, dv := 0#16, pressed := false,
                 lastTs := 0#32, tsValid := false }) ∧
  ∀ s t : State, s.inp.rst = false → step s = .next t →
    (s.tsValid = true → t.tsValid = true) ∧ (t.cursor = s.cursor ∨ t.cursor = s.cursor - 1#2)

/-- The cycle with `rst` asserted is over after its step, and the cycles to come are kept (the model's choice, logs 3 and 8); so the
clock edge after it takes the next cycle, and if `rst` is released there, that cycle's command is the first to run (R122). -/
def Obligations.ResetCycleEndsAndKeepsLaterCycles : Prop :=
  ∀ s : State, s.inp.rst = true →
    ∃ t, step s = .next t ∧ t.inp.rst = false ∧ t.feed = s.feed ∧
      ∀ c rest, s.feed = c :: rest → s.inp.ms ≤ c.ms →
        ∃ u, step t = .next u ∧ u.inp = c ∧ u.feed = rest ∧ u.arch = State.reset.arch ∧
          ∀ i, c.rst = false → c.cmdValid = true → decode c.cmd = .ok i → step u = exec i u.acceptCommand

/-- R13, R121, R123: the reset values, and the pins after reset. -/
def Obligations.ResetStateHoldsResetValues : Prop :=
  State.reset.arch = { cursor := 3#2, seg := 0xFF#8, sel := 0b0000#4, scanEn := false, dv := 0#16, pressed := false,
                       lastTs := 0#32, tsValid := false } ∧
  State.reset.outputs.sel = 0b0000#4 ∧ State.reset.outputs.seg = 0xFF#8 ∧ State.reset.outputs.pressed = false ∧
  State.reset.outputs.rspValid = false

/-- R26: the output ports are the latches, driven continuously; `rsp` carries the response while `rsp_valid = 1` and a free value
while it is 0. -/
def Obligations.OutputPortsShowTheLatches : Prop :=
  ∀ s : State,
    s.outputs.seg = s.seg ∧ s.outputs.sel = s.sel ∧ s.outputs.pressed = s.pressed ∧
    (∀ w, s.rsp = some w → s.outputs.rspValid = true ∧ s.outputs.rsp = w) ∧
    (s.rsp = none → s.outputs.rspValid = false ∧ s.outputs.rsp = Config.idleRsp s.draws)

/-- The word placed for the next step is the word it runs (the host's interface; log 13). -/
def Obligations.PlacedWordRunsNext : Prop :=
  ∀ (s : State) (w : Nat) (i : Instr),
    (decodeTableWord 24 w = some i →
      step (s.withFetchWord 24 w) = exec i (s.withFetchWord 24 w).acceptCommand) ∧
    (decodeTableWord 8 w = some i → i = .tick →
      step (s.withFetchWord 8 w) = exec i (s.withFetchWord 8 w).acceptTick) ∧
    (decodeTableWord 8 w = some i → i ≠ .tick →
      step (s.withFetchWord 8 w) = exec i (s.withFetchWord 8 w).acceptEdge)

/-- R103: every operation completes, in every state; so does the step of every cycle that presents anything, a reset or a reserved
word too. -/
def Obligations.EveryOperationCompletes : Prop :=
  (∀ (i : Instr) (s : State), ∃ t, exec i s = .next t) ∧
  ∀ s : State, s.inp.rst = true ∨ s.inp.cmdValid = true ∨ s.inp.btnFall = true ∨ s.inp.tick = true → ∃ t, step s = .next t

/-- R116 in the model's form (log 7: the platform's millisecond count is unbounded; log 3: the cycles to come are the feed): `now` is
the count modulo 2^32; no step takes it back, reset keeps it, and no operation but `EDGE` reads it; the machine refuses exactly the
run in which the next cycle's count is lower, and nothing else. -/
def Obligations.TimebaseNeverGoesBack : Prop :=
  (∀ p : Inputs, p.now.toNat = p.ms % 2 ^ 32) ∧
  (∀ s t : State, step s = .next t → s.inp.ms ≤ t.inp.ms) ∧
  (∀ s t : State, s.inp.rst = true → step s = .next t → t.inp.ms = s.inp.ms) ∧
  (∀ (s : State) (m : Nat), s.inp.rst = true ∨ s.inp.cmdValid = true ∨ s.inp.btnFall = false ∧ s.inp.tick = true →
    ∃ t, step s = .next t ∧ step { s with inp.ms := m } = .next { t with inp.ms := m }) ∧
  ∀ s : State,
    (step s = .refused .nowWentBack ↔
      s.inp.rst = false ∧ s.inp.cmdValid = false ∧ s.inp.btnFall = false ∧ s.inp.tick = false ∧
        ∃ c rest, s.feed = c :: rest ∧ c.ms < s.inp.ms) ∧
    (step s ≠ .refused .nowWentBack → ∃ t, step s = .next t)

/-! ## The instructions -/

/-- R95: `NOP` changes nothing. -/
def Obligations.NopChangesNothing : Prop :=
  ∀ s : State, exec .nop s = .next s

/-- R67, R70, R71: a `RENDER` with valid operands ends with the complement of `dp` on bit 7, the table's bits 6:0 on the segment
lines and the position's line (all four for −1) enabled, after driving the pins through the three phases; nothing else changes,
whatever `SCAN_EN` is. -/
def Obligations.ValidRenderShowsTheGlyph : Prop :=
  ∀ (s : State) (v : Byte) (pos : Int) (dp : Bool) (hv : v.toNat ≤ 16), (pos = -1 ∨ 0 ≤ pos ∧ pos < 4) →
    ∃ t, exec (.render v pos dp) s = .next t ∧
      t.seg.getLsbD 7 = !dp ∧
      t.seg.extractLsb' 0 7 = (build.segTable ⟨v.toNat, Nat.lt_succ_of_le hv⟩).extractLsb' 0 7 ∧
      t.sel = (if pos = -1 then 0b1111#4 else 0b0001#4 <<< pos.toNat) ∧
      t.pinTrace = s.pinTrace ++ [⟨0b0000#4, s.seg⟩, ⟨0b0000#4, t.seg⟩, ⟨t.sel, t.seg⟩] ∧
      t = { s with seg := t.seg, sel := t.sel, pinTrace := t.pinTrace }

/-- R68, R69: a `RENDER` with a digit value above 16 or a position outside −1, 0..3 changes nothing at all, no pin among it. -/
def Obligations.InvalidRenderChangesNothing : Prop :=
  ∀ (s : State) (v : Byte) (pos : Int) (dp : Bool), 16 < v.toNat ∨ (pos ≠ -1 ∧ ¬(0 ≤ pos ∧ pos < 4)) →
    exec (.render v pos dp) s = .next s

/-- §8 and R70: the same `RENDER` twice gives the same end state as once, valid or not. -/
def Obligations.RenderTwiceIsRenderOnce : Prop :=
  ∀ (s : State) (v : Byte) (pos : Int) (dp : Bool),
    ∃ t u, exec (.render v pos dp) s = .next t ∧ exec (.render v pos dp) t = .next u ∧ u.arch = t.arch

/-- R73, R74: `SCANEN` and `SCANDIS` write `SCAN_EN` and nothing else; in particular neither blanks the display nor moves the
cursor. -/
def Obligations.ScanEnableAndDisableWriteOneFlag : Prop :=
  ∀ s : State, exec .scanen s = .next { s with scanEn := true } ∧ exec .scandis s = .next { s with scanEn := false }

/-- R53, R76: `WRVAL` copies its operand whole into `DV` and writes nothing else. -/
def Obligations.WrvalWritesTheValue : Prop :=
  ∀ (s : State) (v : Value), exec (.wrval v) s = .next { s with dv := v }

/-- R75: a tick while scanning is disabled has no effect at all and leaves no trace. -/
def Obligations.DisabledTickChangesNothing : Prop :=
  ∀ s : State, s.scanEn = false → exec .tick s = .next s

/-- R72, R77, R80: an effective tick shows the decimal digit of weight 10^CURSOR on position CURSOR, the point lit on position 2
only, in the three phases of R67, then counts the cursor down with wrap from 0 to 3; nothing else changes. -/
def Obligations.EffectiveTickShowsTheCursorsDigit : Prop :=
  ∀ s : State, s.scanEn = true →
    ∃ (t : State) (d : Fin 17), exec .tick s = .next t ∧
      d.val = s.dv.toNat / 10 ^ s.cursor.toNat % 10 ∧ d.val ≤ 9 ∧
      t.seg.extractLsb' 0 7 = (build.segTable d).extractLsb' 0 7 ∧
      t.seg.getLsbD 7 = !(decide (s.cursor.toNat = 2)) ∧
      t.sel = 0b0001#4 <<< s.cursor.toNat ∧
      t.cursor.toNat = (if s.cursor.toNat = 0 then 3 else s.cursor.toNat - 1) ∧
      t.pinTrace = s.pinTrace ++ [⟨0b0000#4, s.seg⟩, ⟨0b0000#4, t.seg⟩, ⟨t.sel, t.seg⟩] ∧
      t = { s with seg := t.seg, sel := t.sel, cursor := t.cursor, pinTrace := t.pinTrace }

/-- R78: at any configured decimal-point position and precision, an effective tick lights the point exactly when the cursor equals
the position and the precision is not 0 (vector V27 is precision 0); the machine's own values are position 2 and precision 2. -/
def Obligations.PointIsLitAtTheConfiguredPosition : Prop :=
  build.dpPosition = 2 ∧ build.decimalPrecision = 2 ∧
  ∀ (s : State) (precision position : Nat), s.scanEn = true →
    ((scanTick { build with decimalPrecision := precision, dpPosition := position } s).seg.getLsbD 7 = false ↔
      s.cursor.toNat = position ∧ precision ≠ 0)

/-- R84, R85, R90: an edge is accepted if none was before or if strictly more than 200 ms have passed modulo 2^32, unsigned; then
the timestamp moves and both flags are set. Any other edge changes nothing. -/
def Obligations.EdgeIsAcceptedOutsideTheWindow : Prop :=
  ∀ (s : State) (t : Time),
    (s.tsValid = false ∨ 200 < (t - s.lastTs).toNat →
      exec (.edge t) s = .next { s with lastTs := t, tsValid := true, pressed := true }) ∧
    (s.tsValid = true → (t - s.lastTs).toNat ≤ 200 → exec (.edge t) s = .next s)

/-- R87: `TAKE` answers the flag before the clear and clears it, in one step; the window is not touched. -/
def Obligations.TakeAnswersAndClears : Prop :=
  ∀ s : State,
    exec .take s = .next { s with rsp := some (if s.pressed then 0x0001#16 else 0x0000#16), pressed := false }

/-- R88: `CLRP` clears the flag and nothing else. -/
def Obligations.ClrpClearsTheFlag : Prop :=
  ∀ s : State, exec .clrp s = .next { s with pressed := false }

/-- R96: `RDSTAT` answers the five fields at their bits and writes nothing else. -/
def Obligations.RdstatReportsTheState : Prop :=
  ∀ s : State, ∃ w : RspWord, exec .rdstat s = .next { s with rsp := some w } ∧
    w.getLsbD 0 = s.pressed ∧ w.getLsbD 1 = s.scanEn ∧ w.extractLsb' 2 2 = s.cursor ∧
    w.extractLsb' 4 4 = s.sel ∧ w.extractLsb' 8 8 = s.seg

/-- R60: a command's step ends with `rsp_valid = 1` for `TAKE` and `RDSTAT` and for no other word, reserved words among them. -/
def Obligations.OnlyTakeAndRdstatRespond : Prop :=
  ∀ s : State, s.inp.rst = false → s.inp.cmdValid = true →
    ∃ t, step s = .next t ∧
      (t.rsp.isSome = true ↔ decode s.inp.cmd = .ok .take ∨ decode s.inp.cmd = .ok .rdstat) ∧
      (decode s.inp.cmd = .ok .take → t.rsp = some (if s.pressed then 0x0001#16 else 0x0000#16)) ∧
      (decode s.inp.cmd = .ok .rdstat →
        t.rsp = some (s.seg ++ s.sel ++ s.cursor ++ BitVec.ofBool s.scanEn ++ BitVec.ofBool s.pressed))

/-- R40: two `RDSTAT`s in a row answer the same word and change nothing; two `TAKE`s answer the flag, then 0. -/
def Obligations.RdstatRepeatsAndTakeDoesNot : Prop :=
  ∀ s : State,
    (∃ t u, issue .rdstat s = .next t ∧ issue .rdstat t = .next u ∧ u.rsp = t.rsp ∧ t.arch = s.arch ∧ u.arch = s.arch) ∧
    (∃ t u, issue .take s = .next t ∧ issue .take t = .next u ∧
      t.rsp = some (if s.pressed then 0x0001#16 else 0x0000#16) ∧ u.rsp = some 0x0000#16)

/-- R32, R34, R36, and R64 (the spec's own inference): the glyph table has the entries 0..16 and no other, and its blank entry lights no segment. -/
def Obligations.GlyphTableHasSeventeenEntries : Prop :=
  (∀ v : Nat, (memRead build v).isSome = true ↔ v ≤ 16) ∧ (build.segTable 16).extractLsb' 0 7 = 0x7F#7

/-! ## Whole-machine rules -/

/-- R31, column "written by": an element changes only by an operation of its row. -/
def Obligations.ElementsChangeOnlyByTheirWriters : Prop :=
  ∀ (i : Instr) (s t : State), exec i s = .next t →
    (t.cursor ≠ s.cursor → i = .tick) ∧
    (t.seg ≠ s.seg ∨ t.sel ≠ s.sel → i = .tick ∨ ∃ v p d, i = .render v p d) ∧
    (t.scanEn ≠ s.scanEn → i = .scanen ∨ i = .scandis) ∧
    (t.dv ≠ s.dv → ∃ v, i = .wrval v) ∧
    (s.pressed = false → t.pressed = true → ∃ n, i = .edge n) ∧
    (s.pressed = true → t.pressed = false → i = .take ∨ i = .clrp) ∧
    (t.lastTs ≠ s.lastTs ∨ t.tsValid ≠ s.tsValid → ∃ n, i = .edge n)

/-- R31, column "read by": an operation outside an element's row does the same whatever the element holds. `SEG` and `SEL` are read
by `RDSTAT` and the pins, so the pin trace apart. R60: `DV`, `LAST_TS` and `TS_VALID` reach no response. R86: `EDGE` does not read
`PRESSED`. -/
def Obligations.ElementsAreReadOnlyByTheirReaders : Prop :=
  ∀ (i : Instr) (s : State),
    (∀ x : Value, i ≠ .tick →
      ∃ t, exec i s = .next t ∧
        (exec i { s with dv := x } = .next { t with dv := x } ∨ (∃ v, i = .wrval v) ∧ exec i { s with dv := x } = .next t)) ∧
    (∀ (x : Time) (b : Bool), (∀ n, i ≠ .edge n) →
      ∃ t, exec i s = .next t ∧ exec i { s with lastTs := x, tsValid := b } = .next { t with lastTs := x, tsValid := b }) ∧
    (∀ b : Bool, i ≠ .tick → i ≠ .rdstat →
      ∃ t, exec i s = .next t ∧
        (exec i { s with scanEn := b } = .next { t with scanEn := b } ∨
          (i = .scanen ∨ i = .scandis) ∧ exec i { s with scanEn := b } = .next t)) ∧
    (∀ x : Cursor, i ≠ .tick → i ≠ .rdstat →
      ∃ t, exec i s = .next t ∧ exec i { s with cursor := x } = .next { t with cursor := x }) ∧
    (∀ b : Bool, i ≠ .take → i ≠ .rdstat →
      ∃ t u, exec i s = .next t ∧ exec i { s with pressed := b } = .next u ∧ u = { t with pressed := u.pressed }) ∧
    (∀ (x : SegLines) (y : SelLines), i ≠ .rdstat →
      ∃ t u, exec i s = .next t ∧ exec i { s with seg := x, sel := y } = .next u ∧
        u = { t with seg := u.seg, sel := u.sel, pinTrace := u.pinTrace } ∧
        (u.seg = t.seg ∧ u.sel = t.sel ∨ u.seg = x ∧ u.sel = y))

/-- R104: the five conditions under which an input produces no effect. -/
def Obligations.IgnoredConditionsHaveNoEffect : Prop :=
  ∀ s : State,
    (∀ (v : Byte) (pos : Int) (dp : Bool), 16 < v.toNat → exec (.render v pos dp) s = .next s) ∧
    (∀ (v : Byte) (pos : Int) (dp : Bool), pos ≠ -1 → pos < 0 ∨ 3 < pos → exec (.render v pos dp) s = .next s) ∧
    (∀ e : Reserved, s.inp.rst = false → s.inp.cmdValid = true → decode s.inp.cmd = .error e →
      ∃ t, step s = .next t ∧ t.arch = s.arch ∧ t.rsp = none) ∧
    (∀ t : Time, s.tsValid = true → (t - s.lastTs).toNat ≤ 200 → exec (.edge t) s = .next s) ∧
    (s.scanEn = false → exec .tick s = .next s)

/-- R83, D16: the display's operations and the debounce filter's share no state element, so their order cannot be observed in the
end state: either order of two of them ends in the same state. -/
def Obligations.DisplayAndDebounceCommute : Prop :=
  ∀ (i j : Instr) (s : State), isDisplay i = true → isDebounce j = true →
    ∃ a b c, exec i s = .next a ∧ exec j a = .next c ∧ exec j s = .next b ∧ exec i b = .next c

/-- R29, R30 (a) (the spec's own inferences) in every state that meets the invariant, not only in runs from reset: a step keeps it. -/
def Obligations.StepKeepsTheInvariant : Prop :=
  ∀ s t : State, s.Inv → step s = .next t → t.Inv

/-- The invariant holds right after reset. -/
def Obligations.ResetMeetsTheInvariant : Prop :=
  State.reset.Inv

/-- R29 (c), R82 (a) (the spec's own inferences), R71: the only step that turns `SEL` to all four lines is a valid `RENDER` with position −1; after an
effective tick exactly one line is up. -/
def Obligations.OnlyBroadcastRenderEnablesAll : Prop :=
  (∀ s t : State, step s = .next t → t.sel = 0b1111#4 → s.sel ≠ 0b1111#4 →
    s.inp.rst = false ∧ s.inp.cmdValid = true ∧
      ∃ v d, decode s.inp.cmd = .ok (.render v (-1) d) ∧ v.toNat ≤ 16) ∧
  (∀ s : State, s.scanEn = true →
    ∃ t, exec .tick s = .next t ∧ t.sel ∈ [0b0001#4, 0b0010#4, 0b0100#4, 0b1000#4])

/-- R67, R130: over the pin states a step drives, starting from the pins before it, the segment lines change only while no position
is enabled; and the last pin state is what the latches hold after it. -/
def Obligations.PinsNeverShowAGhostGlyph : Prop :=
  ∀ s t : State, s.inp.rst = false → step s = .next t →
    List.IsChain noCrossTalk (s.pins :: t.pinTrace) ∧ (s.pins :: t.pinTrace).getLast? = some t.pins

/-! ## Runs -/

/-- R79, R137: over consecutive effective ticks the cursor counts down modulo 4, whatever it starts from, and four ticks render
each of the four positions exactly once (the second clause is the spec's own inference); from reset the first tick after `SCANEN` renders position 3. -/
def Obligations.TicksVisitEveryPositionCyclically : Prop :=
  (∀ (n : Nat) (s : State), s.scanEn = true →
    ∃ t, runInstrs (List.replicate n .tick) s = .next t ∧ t.scanEn = true ∧ t.cursor = s.cursor - BitVec.ofNat 2 n) ∧
  (∀ s : State, s.scanEn = true →
    ∃ a b c d, exec .tick s = .next a ∧ exec .tick a = .next b ∧ exec .tick b = .next c ∧ exec .tick c = .next d ∧
      d.cursor = s.cursor ∧ ∀ p < 4, [a.sel, b.sel, c.sel, d.sel].count (0b0001#4 <<< p) = 1) ∧
  (∃ z t, runInstrs [.scanen] State.reset = .next z ∧ exec .tick z = .next t ∧ t.sel = 0b1000#4)

/-- R80, R124 and the document's 12.34 example (S4, P1): after reset, `WRVAL v`, `SCANEN` and four ticks show the four low decimal
digits of `v` at positions 3, 2, 1, 0 in that order, the point lit at position 2 only. -/
def Obligations.BootShowsTheWrittenValue : Prop :=
  ∀ v : Value, ∃ (z a b c d : State) (d3 d2 d1 d0 : Fin 17),
    runInstrs [.wrval v, .scanen] State.reset = .next z ∧
    exec .tick z = .next a ∧ exec .tick a = .next b ∧ exec .tick b = .next c ∧ exec .tick c = .next d ∧
    d3.val = v.toNat / 1000 % 10 ∧ d2.val = v.toNat / 100 % 10 ∧ d1.val = v.toNat / 10 % 10 ∧ d0.val = v.toNat % 10 ∧
    [a.sel, b.sel, c.sel, d.sel] = [0b1000#4, 0b0100#4, 0b0010#4, 0b0001#4] ∧
    [a.seg.getLsbD 7, b.seg.getLsbD 7, c.seg.getLsbD 7, d.seg.getLsbD 7] = [true, false, true, true] ∧
    showsGlyph a.seg d3 ∧ showsGlyph b.seg d2 ∧ showsGlyph c.seg d1 ∧ showsGlyph d.seg d0

/-- R39 (b), (c) (the spec's own inference), R41: after scanning is disabled and until a `SCANEN`, whatever else happens, scanning stays disabled and the
cursor stands; without a `RENDER` the display latches stand too. -/
def Obligations.BracketFreezesTheDisplay : Prop :=
  ∀ (is : List Instr) (s : State), s.scanEn = false → .scanen ∉ is →
    ∃ t, runInstrs is s = .next t ∧ t.scanEn = false ∧ t.cursor = s.cursor ∧
      ((∀ v p d, Instr.render v p d ∉ is) → t.seg = s.seg ∧ t.sel = s.sel)

/-- R41: the ticks of a bracket have no effect: the run without them ends in the same architectural state, edges and all. -/
def Obligations.BracketTicksDropOut : Prop :=
  ∀ (is : List Instr) (s : State), s.scanEn = false → .scanen ∉ is →
    ∃ t u, runInstrs is s = .next t ∧ runInstrs (is.filter (· ≠ .tick)) s = .next u ∧ u.arch = t.arch

/-- R39 (d) (the spec's own inference): an accepted edge is reported by the next `TAKE`, however many other steps without a `TAKE` or `CLRP` come between; and
it is not reported again: after a `TAKE` and any steps without an edge, a `TAKE` answers 0. -/
def Obligations.AcceptedEdgeIsReportedOnce : Prop :=
  (∀ (is : List Instr) (s : State) (n : Time), s.tsValid = false ∨ 200 < (n - s.lastTs).toNat →
    .take ∉ is → .clrp ∉ is →
    ∃ t, runInstrs (.edge n :: is ++ [.take]) s = .next t ∧ t.rsp = some 0x0001#16 ∧ t.pressed = false) ∧
  (∀ (is : List Instr) (s : State), (∀ n, Instr.edge n ∉ is) →
    ∃ t, runInstrs (.take :: is ++ [.take]) s = .next t ∧ t.rsp = some 0x0000#16)

/-- R42, R111: a `TAKE` and an accepted edge in one cycle: the `TAKE` answers the old flag and the event is kept. -/
def Obligations.TakeWithEdgeInOneCycleKeepsTheEvent : Prop :=
  ∀ s : State, s.inp.rst = false → s.inp.cmdValid = true → s.inp.btnFall = true → decode s.inp.cmd = .ok .take →
    s.tsValid = false ∨ 200 < (s.inp.now - s.lastTs).toNat →
    ∃ a b, step s = .next a ∧ step a = .next b ∧
      b.rsp = some (if s.pressed then 0x0001#16 else 0x0000#16) ∧ b.pressed = true ∧ b.lastTs = s.inp.now

/-- R128: with the non-atomic consume an edge accepted between the read and the clear is erased, though its time is kept; with
`TAKE` the same edge is delivered by the next `TAKE` (program P4). -/
def Obligations.NonAtomicConsumeLosesTheEdge : Prop :=
  ∀ (s : State) (n : Time), s.pressed = true → s.tsValid = false ∨ 200 < (n - s.lastTs).toNat →
    (∃ t, consumeNonAtomic [.edge n] s = .next t ∧ t.pressed = false ∧ t.lastTs = n ∧ t.tsValid = true) ∧
    (∃ t, runInstrs [.take, .edge n, .take] s = .next t ∧ t.rsp = some 0x0001#16)

/-- R100: with no edge between, both forms of consume leave the flag clear and touch nothing else of the state. -/
def Obligations.ConsumeLeavesTheFlagClear : Prop :=
  ∀ s : State,
    (∃ t, runInstrs consume s = .next t ∧ t.arch = { s.arch with pressed := false } ∧
      t.rsp = some (if s.pressed then 0x0001#16 else 0x0000#16)) ∧
    (∃ t, consumeNonAtomic [] s = .next t ∧ t.arch = { s.arch with pressed := false })

/-- R85, R91 in unbounded time: judged by the 32-bit port, an edge less than 2^32 ms after the last accepted one is accepted
exactly if more than 200 ms have passed, across a wrap too; one that comes k·2^32 + r ms after it with r ≤ 200 is dropped. -/
def Obligations.EdgeJudgedAcrossTheWrap : Prop :=
  ∀ (s : State) (t1 t2 : Nat), s.tsValid = true → s.lastTs = BitVec.ofNat 32 t1 → t1 ≤ t2 →
    (t2 - t1 < 2 ^ 32 → 200 < t2 - t1 →
      exec (.edge (BitVec.ofNat 32 t2)) s = .next { s with lastTs := BitVec.ofNat 32 t2, pressed := true }) ∧
    (t2 - t1 ≤ 200 → exec (.edge (BitVec.ofNat 32 t2)) s = .next s) ∧
    (∀ k r, t2 - t1 = k * 2 ^ 32 + r → r ≤ 200 → exec (.edge (BitVec.ofNat 32 t2)) s = .next s)

/-- R92: after an accepted edge at `n`, any burst of edges up to 200 ms later is dropped and does not move the window: the edge at
`n + 201` or later (before the wrap) is accepted however many came before. -/
def Obligations.BouncesDoNotMoveTheWindow : Prop :=
  ∀ (s : State) (n : Time) (bounces : List Nat) (k : Nat), s.tsValid = false ∨ 200 < (n - s.lastTs).toNat →
    (∀ b ∈ bounces, b ≤ 200) → 201 ≤ k → k < 2 ^ 32 →
    ∃ t u v, runInstrs [.edge n] s = .next t ∧ t.lastTs = n ∧
      runInstrs (bounces.map fun b => .edge (n + BitVec.ofNat 32 b)) t = .next u ∧ u.arch = t.arch ∧
      exec (.edge (n + BitVec.ofNat 32 k)) u = .next v ∧ v.lastTs = n + BitVec.ofNat 32 k

/-- R94, the document's example (S5): edges at 0, 50 and 250 ms from reset, with and without a `TAKE` after the second. -/
def Obligations.DebounceExampleAcceptsTwoEdges : Prop :=
  ∃ a b c d e,
    exec (.edge 0#32) State.reset = .next a ∧ a.lastTs = 0#32 ∧ a.tsValid = true ∧ a.pressed = true ∧
    exec (.edge 50#32) a = .next b ∧ b = a ∧
    exec (.edge 250#32) b = .next c ∧ c.lastTs = 250#32 ∧ c.pressed = true ∧
    exec .take b = .next d ∧ d.rsp = some 0x0001#16 ∧ d.pressed = false ∧
    exec (.edge 250#32) d = .next e ∧ e.lastTs = 250#32 ∧ e.pressed = true

/-- R30 (b) (the spec's own inference): in a run whose edges come at times that never fall below the times before them,
nor below the timestamp held at its start, the timestamp never decreases: cut the run anywhere, it is no lower at the cut than at the
start and no lower at the end than at the cut. -/
def Obligations.TimestampNeverDecreases : Prop :=
  ∀ (xs ys : List Instr) (s u t : State),
    (∀ n, .edge n ∈ xs ++ ys → s.lastTs.toNat ≤ n.toNat) →
    (xs ++ ys).Pairwise (fun i j => ∀ m n, i = .edge m → j = .edge n → m.toNat ≤ n.toNat) →
    runInstrs xs s = .next u → runInstrs ys u = .next t →
    s.lastTs.toNat ≤ u.lastTs.toNat ∧ u.lastTs.toNat ≤ t.lastTs.toNat

/-- What R30 (b) (the spec's own inference) comes to over steps in the model's form of the timebase (log 7: an unbounded count, and the
refusal of a step back; log 3: the feed): while the count has not wrapped, a step keeps `LAST_TS` at or below it, which R30 (b) does
not say, and no step but a reset makes `LAST_TS` smaller. -/
def Obligations.TimestampFollowsTheTimebase : Prop :=
  ∀ s t : State, s.lastTs.toNat ≤ s.inp.ms → s.inp.ms < 2 ^ 32 → step s = .next t →
    t.lastTs.toNat ≤ t.inp.ms ∧ (s.inp.rst = false → s.lastTs.toNat ≤ t.lastTs.toNat)

/-- R99: the expansion and the end state (the spec's own inference) of `RENDERVALUE`: only the last digit's glyph is on the pins, at
position 0 without the point; scanning is enabled; nothing else of the state has changed. -/
def Obligations.RenderValueEndState : Prop :=
  ∀ (s : State) (d3 d2 d1 d0 : Byte) (h : d0.toNat ≤ 16),
    renderValue build d3 d2 d1 d0 =
      [.scandis, .render d3 3 false, .render d2 2 true, .render d1 1 false, .render d0 0 false, .scanen] ∧
    ∃ t, runInstrs (renderValue build d3 d2 d1 d0) s = .next t ∧
      t.seg.getLsbD 7 = true ∧
      t.seg.extractLsb' 0 7 = (build.segTable ⟨d0.toNat, Nat.lt_succ_of_le h⟩).extractLsb' 0 7 ∧
      t.arch = { s.arch with seg := t.seg, sel := 0b0001#4, scanEn := true }

/-- R82 (b) (the spec's own inference), S3: `RENDERVALUE` twice ends as once, whatever its digits. -/
def Obligations.RenderValueIsIdempotent : Prop :=
  ∀ (s : State) (d3 d2 d1 d0 : Byte),
    ∃ t u, runInstrs (renderValue build d3 d2 d1 d0) s = .next t ∧
      runInstrs (renderValue build d3 d2 d1 d0) t = .next u ∧ u.arch = t.arch

/-- R101: `LAMPTEST` lights the glyph 8 and every point on all positions, every segment with the default table; `BLANKALL` turns
every line off with all positions enabled. -/
def Obligations.LampTestAndBlankAllEndStates : Prop :=
  0#1 ++ (Config.segTableDefault 8).extractLsb' 0 7 = 0x00#8 ∧
  lampTest = [.render 8#8 (-1) true] ∧ blankAll = [.render 16#8 (-1) false] ∧
  ∀ s : State,
    (∃ t, runInstrs lampTest s = .next t ∧ t.arch = { s.arch with seg := t.seg, sel := 0b1111#4 } ∧
      t.seg = 0#1 ++ (build.segTable 8).extractLsb' 0 7) ∧
    (∃ t, runInstrs blankAll s = .next t ∧ t.arch = { s.arch with seg := 0xFF#8, sel := 0b1111#4 })

/-- R102, with either consume at the head: one iteration of the Control Loop from a pending press stores the sample, delivers the
press and ends with scanning enabled and the last digit of the sample on position 0; without a press the value is left alone. With
`CONSUME.NA` a press that was read is stored and cleared whatever falls between the read and the clear. (That the host sends the
last digit to position 0 for a value of 10000 or more or below 1000 too is the model's choice, log 17.) -/
def Obligations.ControlLoopStoresTheSample : Prop :=
  ∀ (s : State) (sample copy : Value),
    (∀ form, form = .atomic ∨ form = .nonAtomic [] →
      ∃ t, controlLoop build form sample copy s = .next t ∧ t.pressed = false ∧ t.scanEn = true ∧ t.sel = 0b0001#4 ∧
        t.cursor = s.cursor ∧ t.lastTs = s.lastTs ∧ t.tsValid = s.tsValid ∧
        t.dv = (if s.pressed then sample else s.dv) ∧
        ∀ d : Fin 17, d.val = (if s.pressed then sample else copy).toNat % 10 → showsGlyph t.seg d) ∧
    (∀ between, s.pressed = true →
      ∃ t, controlLoop build (.nonAtomic between) sample copy s = .next t ∧ t.pressed = false ∧ t.scanEn = true ∧
        t.sel = 0b0001#4 ∧ t.dv = sample ∧ ∀ d : Fin 17, d.val = sample.toNat % 10 → showsGlyph t.seg d)

/-- A step the safety predicate does not mark and that executes a `RENDER` is a `RENDER` inside the bracket with valid operands, and
it takes effect (U1, U4, U6; R126). -/
def Obligations.UnmarkedRenderTakesEffect : Prop :=
  ∀ (s : State) (v : Byte) (pos : Int) (d : Bool), s.inp.rst = false → s.inp.cmdValid = true →
    decode s.inp.cmd = .ok (.render v pos d) → stepViolations s = [] →
    ∃ t, step s = .next t ∧ s.scanEn = false ∧ t.sel ≠ 0b0000#4 ∧ t.seg.getLsbD 7 = !d ∧ ∃ g : Fin 17, g.val = v.toNat ∧ showsGlyph t.seg g
end

