-- ==== Sys2Proof/Laws/Decode.lean ====
section
/-! SUPPORT. The fields of an encoded word, and what the decoder answers for each opcode. -/

namespace Sys2Proof

/-- A field of a concatenation that lies in its low part. -/
theorem extract_append_low {m n : Nat} (x : BitVec m) (y : BitVec n) (lo k : Nat) (h : lo + k ≤ n) :
    (x ++ y).extractLsb' lo k = y.extractLsb' lo k := by
  ext i hi
  simp only [BitVec.getElem_extractLsb', BitVec.getLsbD_append]
  rw [if_pos (by omega)]

/-- A field of a concatenation that lies in its high part. -/
theorem extract_append_high {m n : Nat} (x : BitVec m) (y : BitVec n) (lo k : Nat) (h : n ≤ lo) :
    (x ++ y).extractLsb' lo k = x.extractLsb' (lo - n) k := by
  ext i hi
  simp only [BitVec.getElem_extractLsb', BitVec.getLsbD_append]
  rw [if_neg (by omega)]
  congr 1
  omega

section Render

variable (val : Byte) (pos : Int) (dp : Bool)

@[simp] theorem encodeRender_op : opField (encodeRender val pos dp) = 0x1#4 := by
  simp only [opField, encodeRender]
  repeat rw [extract_append_high _ _ _ _ (by decide)]
  rfl
@[simp] theorem encodeRender_pos : posField (encodeRender val pos dp) = BitVec.ofInt 4 pos := by
  simp only [posField, encodeRender]
  repeat rw [extract_append_high _ _ _ _ (by decide)]
  rw [extract_append_low _ _ _ _ (by decide)]
  simp
@[simp] theorem encodeRender_zero_high : (encodeRender val pos dp).extractLsb' 13 3 = 0#3 := by
  simp only [encodeRender]
  repeat rw [extract_append_high _ _ _ _ (by decide)]
  rw [extract_append_low _ _ _ _ (by decide)]
  rfl
@[simp] theorem encodeRender_dp : dpField (encodeRender val pos dp) = dp := by
  simp only [dpField, encodeRender, BitVec.getLsbD_append]
  cases dp <;> rfl
@[simp] theorem encodeRender_zero_low : (encodeRender val pos dp).extractLsb' 8 4 = 0#4 := by
  simp only [encodeRender]
  rw [extract_append_high _ _ _ _ (by decide), extract_append_low _ _ _ _ (by decide)]
  rfl
@[simp] theorem encodeRender_val : valField (encodeRender val pos dp) = val := by
  simp only [valField, encodeRender]
  rw [extract_append_low _ _ _ _ (by decide)]
  simp

end Render

@[simp] theorem encodeWrval_op (value : Value) : opField (encodeWrval value) = 0x4#4 := by
  simp only [opField, encodeWrval]
  repeat rw [extract_append_high _ _ _ _ (by decide)]
  rfl
@[simp] theorem encodeWrval_zero (value : Value) : (encodeWrval value).extractLsb' 16 4 = 0#4 := by
  simp only [encodeWrval]
  rw [extract_append_high _ _ _ _ (by decide), extract_append_low _ _ _ _ (by decide)]
  rfl
@[simp] theorem encodeWrval_value (value : Value) : valueField (encodeWrval value) = value := by
  simp only [valueField, encodeWrval]
  rw [extract_append_low _ _ _ _ (by decide)]
  simp

/-- A position that fits its field is what the field reads as (R50). -/
theorem toInt_ofInt_of_fits {pos : Int} (h : positionFits pos = true) : (BitVec.ofInt 4 pos).toInt = pos := by
  simp only [positionFits, Bool.and_eq_true, decide_eq_true_iff] at h
  rw [BitVec.toInt_ofInt]
  exact Int.bmod_eq_of_le (by norm_num; omega) (by norm_num; omega)

/-- The field read as two's complement fits (R50). -/
theorem positionFits_toInt (p : BitVec 4) : positionFits p.toInt = true := by
  revert p
  decide

section Opcode

variable {w : CmdWord}

theorem decode_op0 (h : opField w = 0x0#4) : decode w = decodeZ w .nop := by simp [decode, h]
theorem decode_op1 (h : opField w = 0x1#4) : decode w = decodeRender w := by simp [decode, h]
theorem decode_op2 (h : opField w = 0x2#4) : decode w = decodeZ w .scanen := by simp [decode, h]
theorem decode_op3 (h : opField w = 0x3#4) : decode w = decodeZ w .scandis := by simp [decode, h]
theorem decode_op4 (h : opField w = 0x4#4) : decode w = decodeWrval w := by simp [decode, h]
theorem decode_op5 (h : opField w = 0x5#4) : decode w = decodeZ w .take := by simp [decode, h]
theorem decode_op6 (h : opField w = 0x6#4) : decode w = decodeZ w .clrp := by simp [decode, h]
theorem decode_op7 (h : opField w = 0x7#4) : decode w = decodeZ w .rdstat := by simp [decode, h]

/-- Opcodes 8 to 15 are reserved (R55). -/
theorem decode_reserved_opcode (h : 8 ≤ (opField w).toNat) : decode w = .error .opcode := by
  unfold decode
  split <;> first | omega | rfl

end Opcode

/-- What the decoder can answer: the operation of the word's opcode, its must-be-zero bits zero (R57). -/
theorem decode_ok_cases {w : CmdWord} {i : Instr} (h : decode w = .ok i) :
    w.extractLsb' 0 20 = 0#20 ∧
      ((opField w = 0x0#4 ∧ i = .nop) ∨ (opField w = 0x2#4 ∧ i = .scanen) ∨ (opField w = 0x3#4 ∧ i = .scandis) ∨
        (opField w = 0x5#4 ∧ i = .take) ∨ (opField w = 0x6#4 ∧ i = .clrp) ∨ (opField w = 0x7#4 ∧ i = .rdstat)) ∨
    (opField w = 0x1#4 ∧ w.extractLsb' 13 3 = 0#3 ∧ w.extractLsb' 8 4 = 0#4 ∧
      i = .render (valField w) (posField w).toInt (dpField w)) ∨
    (opField w = 0x4#4 ∧ w.extractLsb' 16 4 = 0#4 ∧ i = .wrval (valueField w)) := by
  have hz : ∀ j : Instr, decodeZ w j = .ok i → w.extractLsb' 0 20 = 0#20 ∧ i = j := by
    intro j hj
    unfold decodeZ at hj
    split at hj
    · exact ⟨‹_›, (Except.ok.inj hj).symm⟩
    · cases hj
  have hop : ∀ (n : Nat), (opField w).toNat = n → n < 16 → opField w = BitVec.ofNat 4 n := by
    intro n hn _
    rw [← hn, BitVec.ofNat_toNat, BitVec.setWidth_eq]
  unfold decode at h
  split at h
  case h_1 ho => obtain ⟨h0, rfl⟩ := hz _ h; exact .inl ⟨h0, .inl ⟨hop 0 ho (by decide), rfl⟩⟩
  case h_2 ho =>
    unfold decodeRender at h
    split at h
    · exact .inr (.inl ⟨hop 1 ho (by decide), (‹_ ∧ _›).1, (‹_ ∧ _›).2, (Except.ok.inj h).symm⟩)
    · cases h
  case h_3 ho => obtain ⟨h0, rfl⟩ := hz _ h; exact .inl ⟨h0, .inr (.inl ⟨hop 2 ho (by decide), rfl⟩)⟩
  case h_4 ho => obtain ⟨h0, rfl⟩ := hz _ h; exact .inl ⟨h0, .inr (.inr (.inl ⟨hop 3 ho (by decide), rfl⟩))⟩
  case h_5 ho =>
    unfold decodeWrval at h
    split at h
    · exact .inr (.inr ⟨hop 4 ho (by decide), ‹_›, (Except.ok.inj h).symm⟩)
    · cases h
  case h_6 ho => obtain ⟨h0, rfl⟩ := hz _ h; exact .inl ⟨h0, .inr (.inr (.inr (.inl ⟨hop 5 ho (by decide), rfl⟩)))⟩
  case h_7 ho => obtain ⟨h0, rfl⟩ := hz _ h; exact .inl ⟨h0, .inr (.inr (.inr (.inr (.inl ⟨hop 6 ho (by decide), rfl⟩))))⟩
  case h_8 ho => obtain ⟨h0, rfl⟩ := hz _ h; exact .inl ⟨h0, .inr (.inr (.inr (.inr (.inr ⟨hop 7 ho (by decide), rfl⟩))))⟩
  case h_9 => cases h

/-- A bit of a field is a bit of the word. -/
theorem getLsbD_of_field {n lo k : Nat} {w : BitVec n} {v : BitVec k} (h : w.extractLsb' lo k = v) (j : Nat) (hj : j < k) :
    w.getLsbD (lo + j) = v.getLsbD j := by
  rw [← h, BitVec.getLsbD_extractLsb']
  simp [hj]

/-- The mask of `RENDER` keeps `OP` and the two must-be-zero fields (R47, R54). -/
theorem render_mask_iff (w : CmdWord) :
    w &&& 0xF0EF00#24 = 0x100000#24 ↔ opField w = 0x1#4 ∧ w.extractLsb' 13 3 = 0#3 ∧ w.extractLsb' 8 4 = 0#4 := by
  constructor
  · intro h
    have h20 := congrArg (BitVec.extractLsb' 20 4) h
    have h13 := congrArg (BitVec.extractLsb' 13 3) h
    have h8 := congrArg (BitVec.extractLsb' 8 4) h
    rw [BitVec.extractLsb'_and] at h20 h13 h8
    refine ⟨?_, ?_, ?_⟩
    · revert h20
      change opField w &&& _ = _ → _
      generalize opField w = x
      revert x; decide
    · generalize w.extractLsb' 13 3 = x at *
      revert x; decide
    · generalize w.extractLsb' 8 4 = x at *
      revert x; decide
  · rintro ⟨h20, h13, h8⟩
    ext i hi
    rw [← BitVec.getLsbD_eq_getElem, ← BitVec.getLsbD_eq_getElem, BitVec.getLsbD_and]
    interval_cases i
    all_goals first
      | (rw [show (0xF0EF00#24).getLsbD _ = false from rfl, Bool.and_false]; rfl)
      | (rw [show (0xF0EF00#24).getLsbD _ = true from rfl, Bool.and_true]
         first
         | exact getLsbD_of_field h8 0 (by decide) | exact getLsbD_of_field h8 1 (by decide)
         | exact getLsbD_of_field h8 2 (by decide) | exact getLsbD_of_field h8 3 (by decide)
         | exact getLsbD_of_field h13 0 (by decide) | exact getLsbD_of_field h13 1 (by decide)
         | exact getLsbD_of_field h13 2 (by decide)
         | exact getLsbD_of_field h20 0 (by decide) | exact getLsbD_of_field h20 1 (by decide)
         | exact getLsbD_of_field h20 2 (by decide) | exact getLsbD_of_field h20 3 (by decide))
/-- The mask of `WRVAL` keeps `OP` and the must-be-zero field (R48, R54). -/
theorem wrval_mask_iff (w : CmdWord) :
    w &&& 0xFF0000#24 = 0x400000#24 ↔ opField w = 0x4#4 ∧ w.extractLsb' 16 4 = 0#4 := by
  constructor
  · intro h
    have h20 := congrArg (BitVec.extractLsb' 20 4) h
    have h16 := congrArg (BitVec.extractLsb' 16 4) h
    rw [BitVec.extractLsb'_and] at h20 h16
    refine ⟨?_, ?_⟩
    · revert h20
      change opField w &&& _ = _ → _
      generalize opField w = x
      revert x; decide
    · generalize w.extractLsb' 16 4 = x at *
      revert x; decide
  · rintro ⟨h20, h16⟩
    ext i hi
    rw [← BitVec.getLsbD_eq_getElem, ← BitVec.getLsbD_eq_getElem, BitVec.getLsbD_and]
    interval_cases i
    all_goals first
      | (rw [show (0xFF0000#24).getLsbD _ = false from rfl, Bool.and_false]; rfl)
      | (rw [show (0xFF0000#24).getLsbD _ = true from rfl, Bool.and_true]
         first
         | exact getLsbD_of_field h16 0 (by decide) | exact getLsbD_of_field h16 1 (by decide)
         | exact getLsbD_of_field h16 2 (by decide) | exact getLsbD_of_field h16 3 (by decide)
         | exact getLsbD_of_field h20 0 (by decide) | exact getLsbD_of_field h20 1 (by decide)
         | exact getLsbD_of_field h20 2 (by decide) | exact getLsbD_of_field h20 3 (by decide))

end Sys2Proof
end

