-- ==== Sys2Proof/Laws/Operands.lean ====
section
/-! SUPPORT. What the operand forms compute, at any configuration and at the machine's own. -/

namespace Sys2Proof.Machine

@[simp] theorem build_displayCount : build.displayCount = 4 := rfl
@[simp] theorem build_decimalPrecision : build.decimalPrecision = 2 := rfl
@[simp] theorem build_debounceWindowMs : build.debounceWindowMs = 200 := rfl
@[simp] theorem build_broadcast : build.broadcast = -1 := rfl
@[simp] theorem build_digitMax : build.digitMax = 16 := rfl
@[simp] theorem build_dpPosition : build.dpPosition = 2 := rfl

/-- Inside the table's index range a read gives the entry (R32). -/
theorem memRead_of_lt (c : Config) {v : Nat} (h : v < 17) : memRead c v = some (c.segTable ⟨v, h⟩) := by
  simp [memRead, h]

/-- Outside it there is no entry (R34, R36). -/
theorem memRead_of_ge (c : Config) {v : Nat} (h : 17 ≤ v) : memRead c v = none := by
  simp [memRead, Nat.not_lt.mpr h]

/-- Bits 6:0 of the levels are the table's (R67). -/
@[simp] theorem segLevels_low (dp : Bool) (m : Byte) : (segLevels dp m).extractLsb' 0 7 = m.extractLsb' 0 7 := by
  ext i hi
  simp only [segLevels, BitVec.getElem_extractLsb', Nat.zero_add, BitVec.getLsbD_append, BitVec.getLsbD_extractLsb']
  simp [hi]

/-- Bit 7 of the levels is the complement of the decimal-point flag (R62, R67). -/
@[simp] theorem segLevels_dp (dp : Bool) (m : Byte) : (segLevels dp m).getLsbD 7 = !dp := by
  unfold segLevels
  rw [BitVec.getLsbD_append, if_neg (by decide)]
  cases dp <;> rfl

/-- The broadcast position enables every line (R71). -/
theorem positionLines_broadcast : positionLines build (-1) = some 0b1111#4 := by decide

/-- A display position enables its own line (R67). -/
theorem positionLines_of_range {pos : Int} (h0 : 0 ≤ pos) (h4 : pos < 4) :
    positionLines build pos = some (onehot pos.toNat) := by
  have hb : pos ≠ -1 := by omega
  simp [positionLines, hb, h0, h4]

/-- Any other position enables none (R69). -/
theorem positionLines_invalid {pos : Int} (hb : pos ≠ -1) (h : ¬(0 ≤ pos ∧ pos < 4)) :
    positionLines build pos = none := by
  simp only [positionLines, build_broadcast, hb, if_false, build_displayCount]
  exact if_neg h

/-- A valid position enables some line. -/
theorem positionLines_ne_zero {pos : Int} {lines : SelLines} (h : positionLines build pos = some lines) :
    lines = 0b1111#4 ∧ pos = -1 ∨ 0 ≤ pos ∧ pos < 4 ∧ lines = onehot pos.toNat := by
  by_cases hb : pos = -1
  · subst hb
    exact .inl ⟨Option.some.inj (h.symm.trans positionLines_broadcast), rfl⟩
  · by_cases hr : 0 ≤ pos ∧ pos < 4
    · exact .inr ⟨hr.1, hr.2, Option.some.inj (h.symm.trans (positionLines_of_range hr.1 hr.2))⟩
    · simp [positionLines_invalid hb hr] at h

/-- The digit of a tick is 0..9 (R77). -/
theorem digitAt_toNat (dv : Value) (cur : Cursor) :
    (digitAt dv cur).toNat = dv.toNat / 10 ^ cur.toNat % 10 := by
  have h : dv.toNat / 10 ^ cur.toNat % 10 < 10 := Nat.mod_lt _ (by decide)
  simp only [digitAt, BitVec.toNat_ofNat]
  exact Nat.mod_eq_of_lt (by omega)

/-- The digit of a tick is 0..9 (R77). -/
theorem digitAt_lt (dv : Value) (cur : Cursor) : (digitAt dv cur).toNat < 10 := by
  rw [digitAt_toNat]
  exact Nat.mod_lt _ (by decide)

/-- The cursor counts down modulo 4 (R23, R72). -/
theorem nextCursor_build (cur : Cursor) : nextCursor build cur = cur - 1#2 := by
  revert cur
  decide

end Sys2Proof.Machine
end

