-- ==== Sys2Proof/Laws/State.lean ====
section
/-! SUPPORT. What each update of the state does to each field, and to the architectural part as a whole. -/

namespace Sys2Proof.Machine

variable (s : State)

@[simp] theorem State.driveSel_cursor (v : SelLines) : (s.driveSel v).cursor = s.cursor := rfl
@[simp] theorem State.driveSel_seg (v : SelLines) : (s.driveSel v).seg = s.seg := rfl
@[simp] theorem State.driveSel_sel (v : SelLines) : (s.driveSel v).sel = v := rfl
@[simp] theorem State.driveSel_scanEn (v : SelLines) : (s.driveSel v).scanEn = s.scanEn := rfl
@[simp] theorem State.driveSel_dv (v : SelLines) : (s.driveSel v).dv = s.dv := rfl
@[simp] theorem State.driveSel_pressed (v : SelLines) : (s.driveSel v).pressed = s.pressed := rfl
@[simp] theorem State.driveSel_lastTs (v : SelLines) : (s.driveSel v).lastTs = s.lastTs := rfl
@[simp] theorem State.driveSel_tsValid (v : SelLines) : (s.driveSel v).tsValid = s.tsValid := rfl
@[simp] theorem State.driveSel_rsp (v : SelLines) : (s.driveSel v).rsp = s.rsp := rfl
@[simp] theorem State.driveSel_pinTrace (v : SelLines) : (s.driveSel v).pinTrace = s.pinTrace ++ [⟨v, s.seg⟩] := rfl
@[simp] theorem State.driveSel_inp (v : SelLines) : (s.driveSel v).inp = s.inp := rfl
@[simp] theorem State.driveSel_feed (v : SelLines) : (s.driveSel v).feed = s.feed := rfl
@[simp] theorem State.driveSel_draws (v : SelLines) : (s.driveSel v).draws = s.draws := rfl
@[simp] theorem State.driveSel_arch (v : SelLines) : (s.driveSel v).arch = { s.arch with sel := v } := rfl

@[simp] theorem State.driveSeg_cursor (v : SegLines) : (s.driveSeg v).cursor = s.cursor := rfl
@[simp] theorem State.driveSeg_seg (v : SegLines) : (s.driveSeg v).seg = v := rfl
@[simp] theorem State.driveSeg_sel (v : SegLines) : (s.driveSeg v).sel = s.sel := rfl
@[simp] theorem State.driveSeg_scanEn (v : SegLines) : (s.driveSeg v).scanEn = s.scanEn := rfl
@[simp] theorem State.driveSeg_dv (v : SegLines) : (s.driveSeg v).dv = s.dv := rfl
@[simp] theorem State.driveSeg_pressed (v : SegLines) : (s.driveSeg v).pressed = s.pressed := rfl
@[simp] theorem State.driveSeg_lastTs (v : SegLines) : (s.driveSeg v).lastTs = s.lastTs := rfl
@[simp] theorem State.driveSeg_tsValid (v : SegLines) : (s.driveSeg v).tsValid = s.tsValid := rfl
@[simp] theorem State.driveSeg_rsp (v : SegLines) : (s.driveSeg v).rsp = s.rsp := rfl
@[simp] theorem State.driveSeg_pinTrace (v : SegLines) : (s.driveSeg v).pinTrace = s.pinTrace ++ [⟨s.sel, v⟩] := rfl
@[simp] theorem State.driveSeg_inp (v : SegLines) : (s.driveSeg v).inp = s.inp := rfl
@[simp] theorem State.driveSeg_feed (v : SegLines) : (s.driveSeg v).feed = s.feed := rfl
@[simp] theorem State.driveSeg_draws (v : SegLines) : (s.driveSeg v).draws = s.draws := rfl
@[simp] theorem State.driveSeg_arch (v : SegLines) : (s.driveSeg v).arch = { s.arch with seg := v } := rfl

@[simp] theorem State.setCursor_cursor (v : Cursor) : (s.setCursor v).cursor = v := rfl
@[simp] theorem State.setCursor_seg (v : Cursor) : (s.setCursor v).seg = s.seg := rfl
@[simp] theorem State.setCursor_sel (v : Cursor) : (s.setCursor v).sel = s.sel := rfl
@[simp] theorem State.setCursor_scanEn (v : Cursor) : (s.setCursor v).scanEn = s.scanEn := rfl
@[simp] theorem State.setCursor_dv (v : Cursor) : (s.setCursor v).dv = s.dv := rfl
@[simp] theorem State.setCursor_pressed (v : Cursor) : (s.setCursor v).pressed = s.pressed := rfl
@[simp] theorem State.setCursor_lastTs (v : Cursor) : (s.setCursor v).lastTs = s.lastTs := rfl
@[simp] theorem State.setCursor_tsValid (v : Cursor) : (s.setCursor v).tsValid = s.tsValid := rfl
@[simp] theorem State.setCursor_rsp (v : Cursor) : (s.setCursor v).rsp = s.rsp := rfl
@[simp] theorem State.setCursor_pinTrace (v : Cursor) : (s.setCursor v).pinTrace = s.pinTrace := rfl
@[simp] theorem State.setCursor_inp (v : Cursor) : (s.setCursor v).inp = s.inp := rfl
@[simp] theorem State.setCursor_feed (v : Cursor) : (s.setCursor v).feed = s.feed := rfl
@[simp] theorem State.setCursor_draws (v : Cursor) : (s.setCursor v).draws = s.draws := rfl
@[simp] theorem State.setCursor_arch (v : Cursor) : (s.setCursor v).arch = { s.arch with cursor := v } := rfl

@[simp] theorem State.setScanEn_cursor (b : Bool) : (s.setScanEn b).cursor = s.cursor := rfl
@[simp] theorem State.setScanEn_seg (b : Bool) : (s.setScanEn b).seg = s.seg := rfl
@[simp] theorem State.setScanEn_sel (b : Bool) : (s.setScanEn b).sel = s.sel := rfl
@[simp] theorem State.setScanEn_scanEn (b : Bool) : (s.setScanEn b).scanEn = b := rfl
@[simp] theorem State.setScanEn_dv (b : Bool) : (s.setScanEn b).dv = s.dv := rfl
@[simp] theorem State.setScanEn_pressed (b : Bool) : (s.setScanEn b).pressed = s.pressed := rfl
@[simp] theorem State.setScanEn_lastTs (b : Bool) : (s.setScanEn b).lastTs = s.lastTs := rfl
@[simp] theorem State.setScanEn_tsValid (b : Bool) : (s.setScanEn b).tsValid = s.tsValid := rfl
@[simp] theorem State.setScanEn_rsp (b : Bool) : (s.setScanEn b).rsp = s.rsp := rfl
@[simp] theorem State.setScanEn_pinTrace (b : Bool) : (s.setScanEn b).pinTrace = s.pinTrace := rfl
@[simp] theorem State.setScanEn_inp (b : Bool) : (s.setScanEn b).inp = s.inp := rfl
@[simp] theorem State.setScanEn_feed (b : Bool) : (s.setScanEn b).feed = s.feed := rfl
@[simp] theorem State.setScanEn_draws (b : Bool) : (s.setScanEn b).draws = s.draws := rfl
@[simp] theorem State.setScanEn_arch (b : Bool) : (s.setScanEn b).arch = { s.arch with scanEn := b } := rfl

@[simp] theorem State.setDv_cursor (v : Value) : (s.setDv v).cursor = s.cursor := rfl
@[simp] theorem State.setDv_seg (v : Value) : (s.setDv v).seg = s.seg := rfl
@[simp] theorem State.setDv_sel (v : Value) : (s.setDv v).sel = s.sel := rfl
@[simp] theorem State.setDv_scanEn (v : Value) : (s.setDv v).scanEn = s.scanEn := rfl
@[simp] theorem State.setDv_dv (v : Value) : (s.setDv v).dv = v := rfl
@[simp] theorem State.setDv_pressed (v : Value) : (s.setDv v).pressed = s.pressed := rfl
@[simp] theorem State.setDv_lastTs (v : Value) : (s.setDv v).lastTs = s.lastTs := rfl
@[simp] theorem State.setDv_tsValid (v : Value) : (s.setDv v).tsValid = s.tsValid := rfl
@[simp] theorem State.setDv_rsp (v : Value) : (s.setDv v).rsp = s.rsp := rfl
@[simp] theorem State.setDv_pinTrace (v : Value) : (s.setDv v).pinTrace = s.pinTrace := rfl
@[simp] theorem State.setDv_inp (v : Value) : (s.setDv v).inp = s.inp := rfl
@[simp] theorem State.setDv_feed (v : Value) : (s.setDv v).feed = s.feed := rfl
@[simp] theorem State.setDv_draws (v : Value) : (s.setDv v).draws = s.draws := rfl
@[simp] theorem State.setDv_arch (v : Value) : (s.setDv v).arch = { s.arch with dv := v } := rfl

@[simp] theorem State.setPressed_cursor (b : Bool) : (s.setPressed b).cursor = s.cursor := rfl
@[simp] theorem State.setPressed_seg (b : Bool) : (s.setPressed b).seg = s.seg := rfl
@[simp] theorem State.setPressed_sel (b : Bool) : (s.setPressed b).sel = s.sel := rfl
@[simp] theorem State.setPressed_scanEn (b : Bool) : (s.setPressed b).scanEn = s.scanEn := rfl
@[simp] theorem State.setPressed_dv (b : Bool) : (s.setPressed b).dv = s.dv := rfl
@[simp] theorem State.setPressed_pressed (b : Bool) : (s.setPressed b).pressed = b := rfl
@[simp] theorem State.setPressed_lastTs (b : Bool) : (s.setPressed b).lastTs = s.lastTs := rfl
@[simp] theorem State.setPressed_tsValid (b : Bool) : (s.setPressed b).tsValid = s.tsValid := rfl
@[simp] theorem State.setPressed_rsp (b : Bool) : (s.setPressed b).rsp = s.rsp := rfl
@[simp] theorem State.setPressed_pinTrace (b : Bool) : (s.setPressed b).pinTrace = s.pinTrace := rfl
@[simp] theorem State.setPressed_inp (b : Bool) : (s.setPressed b).inp = s.inp := rfl
@[simp] theorem State.setPressed_feed (b : Bool) : (s.setPressed b).feed = s.feed := rfl
@[simp] theorem State.setPressed_draws (b : Bool) : (s.setPressed b).draws = s.draws := rfl
@[simp] theorem State.setPressed_arch (b : Bool) : (s.setPressed b).arch = { s.arch with pressed := b } := rfl

@[simp] theorem State.respond_cursor (w : RspWord) : (s.respond w).cursor = s.cursor := rfl
@[simp] theorem State.respond_seg (w : RspWord) : (s.respond w).seg = s.seg := rfl
@[simp] theorem State.respond_sel (w : RspWord) : (s.respond w).sel = s.sel := rfl
@[simp] theorem State.respond_scanEn (w : RspWord) : (s.respond w).scanEn = s.scanEn := rfl
@[simp] theorem State.respond_dv (w : RspWord) : (s.respond w).dv = s.dv := rfl
@[simp] theorem State.respond_pressed (w : RspWord) : (s.respond w).pressed = s.pressed := rfl
@[simp] theorem State.respond_lastTs (w : RspWord) : (s.respond w).lastTs = s.lastTs := rfl
@[simp] theorem State.respond_tsValid (w : RspWord) : (s.respond w).tsValid = s.tsValid := rfl
@[simp] theorem State.respond_rsp (w : RspWord) : (s.respond w).rsp = some w := rfl
@[simp] theorem State.respond_pinTrace (w : RspWord) : (s.respond w).pinTrace = s.pinTrace := rfl
@[simp] theorem State.respond_inp (w : RspWord) : (s.respond w).inp = s.inp := rfl
@[simp] theorem State.respond_feed (w : RspWord) : (s.respond w).feed = s.feed := rfl
@[simp] theorem State.respond_draws (w : RspWord) : (s.respond w).draws = s.draws := rfl
@[simp] theorem State.respond_arch (w : RspWord) : (s.respond w).arch = s.arch := rfl

@[simp] theorem State.clearOutputs_cursor : s.clearOutputs.cursor = s.cursor := rfl
@[simp] theorem State.clearOutputs_seg : s.clearOutputs.seg = s.seg := rfl
@[simp] theorem State.clearOutputs_sel : s.clearOutputs.sel = s.sel := rfl
@[simp] theorem State.clearOutputs_scanEn : s.clearOutputs.scanEn = s.scanEn := rfl
@[simp] theorem State.clearOutputs_dv : s.clearOutputs.dv = s.dv := rfl
@[simp] theorem State.clearOutputs_pressed : s.clearOutputs.pressed = s.pressed := rfl
@[simp] theorem State.clearOutputs_lastTs : s.clearOutputs.lastTs = s.lastTs := rfl
@[simp] theorem State.clearOutputs_tsValid : s.clearOutputs.tsValid = s.tsValid := rfl
@[simp] theorem State.clearOutputs_rsp : s.clearOutputs.rsp = none := rfl
@[simp] theorem State.clearOutputs_pinTrace : s.clearOutputs.pinTrace = [] := rfl
@[simp] theorem State.clearOutputs_inp : s.clearOutputs.inp = s.inp := rfl
@[simp] theorem State.clearOutputs_feed : s.clearOutputs.feed = s.feed := rfl
@[simp] theorem State.clearOutputs_draws : s.clearOutputs.draws = s.draws := rfl
@[simp] theorem State.clearOutputs_arch : s.clearOutputs.arch = s.arch := rfl

@[simp] theorem State.acceptCommand_cursor : s.acceptCommand.cursor = s.cursor := rfl
@[simp] theorem State.acceptCommand_seg : s.acceptCommand.seg = s.seg := rfl
@[simp] theorem State.acceptCommand_sel : s.acceptCommand.sel = s.sel := rfl
@[simp] theorem State.acceptCommand_scanEn : s.acceptCommand.scanEn = s.scanEn := rfl
@[simp] theorem State.acceptCommand_dv : s.acceptCommand.dv = s.dv := rfl
@[simp] theorem State.acceptCommand_pressed : s.acceptCommand.pressed = s.pressed := rfl
@[simp] theorem State.acceptCommand_lastTs : s.acceptCommand.lastTs = s.lastTs := rfl
@[simp] theorem State.acceptCommand_tsValid : s.acceptCommand.tsValid = s.tsValid := rfl
@[simp] theorem State.acceptCommand_rsp : s.acceptCommand.rsp = none := rfl
@[simp] theorem State.acceptCommand_pinTrace : s.acceptCommand.pinTrace = [] := rfl
@[simp] theorem State.acceptCommand_inp : s.acceptCommand.inp = { s.inp with cmdValid := false } := rfl
@[simp] theorem State.acceptCommand_feed : s.acceptCommand.feed = s.feed := rfl
@[simp] theorem State.acceptCommand_draws : s.acceptCommand.draws = s.draws + 1 := rfl
@[simp] theorem State.acceptCommand_arch : s.acceptCommand.arch = s.arch := rfl

@[simp] theorem State.acceptEdge_cursor : s.acceptEdge.cursor = s.cursor := rfl
@[simp] theorem State.acceptEdge_seg : s.acceptEdge.seg = s.seg := rfl
@[simp] theorem State.acceptEdge_sel : s.acceptEdge.sel = s.sel := rfl
@[simp] theorem State.acceptEdge_scanEn : s.acceptEdge.scanEn = s.scanEn := rfl
@[simp] theorem State.acceptEdge_dv : s.acceptEdge.dv = s.dv := rfl
@[simp] theorem State.acceptEdge_pressed : s.acceptEdge.pressed = s.pressed := rfl
@[simp] theorem State.acceptEdge_lastTs : s.acceptEdge.lastTs = s.lastTs := rfl
@[simp] theorem State.acceptEdge_tsValid : s.acceptEdge.tsValid = s.tsValid := rfl
@[simp] theorem State.acceptEdge_rsp : s.acceptEdge.rsp = s.rsp := rfl
@[simp] theorem State.acceptEdge_pinTrace : s.acceptEdge.pinTrace = [] := rfl
@[simp] theorem State.acceptEdge_inp : s.acceptEdge.inp = { s.inp with btnFall := false } := rfl
@[simp] theorem State.acceptEdge_feed : s.acceptEdge.feed = s.feed := rfl
@[simp] theorem State.acceptEdge_draws : s.acceptEdge.draws = s.draws + 1 := rfl
@[simp] theorem State.acceptEdge_arch : s.acceptEdge.arch = s.arch := rfl

@[simp] theorem State.acceptTick_cursor : s.acceptTick.cursor = s.cursor := rfl
@[simp] theorem State.acceptTick_seg : s.acceptTick.seg = s.seg := rfl
@[simp] theorem State.acceptTick_sel : s.acceptTick.sel = s.sel := rfl
@[simp] theorem State.acceptTick_scanEn : s.acceptTick.scanEn = s.scanEn := rfl
@[simp] theorem State.acceptTick_dv : s.acceptTick.dv = s.dv := rfl
@[simp] theorem State.acceptTick_pressed : s.acceptTick.pressed = s.pressed := rfl
@[simp] theorem State.acceptTick_lastTs : s.acceptTick.lastTs = s.lastTs := rfl
@[simp] theorem State.acceptTick_tsValid : s.acceptTick.tsValid = s.tsValid := rfl
@[simp] theorem State.acceptTick_rsp : s.acceptTick.rsp = s.rsp := rfl
@[simp] theorem State.acceptTick_pinTrace : s.acceptTick.pinTrace = [] := rfl
@[simp] theorem State.acceptTick_inp : s.acceptTick.inp = { s.inp with tick := false } := rfl
@[simp] theorem State.acceptTick_feed : s.acceptTick.feed = s.feed := rfl
@[simp] theorem State.acceptTick_draws : s.acceptTick.draws = s.draws + 1 := rfl
@[simp] theorem State.acceptTick_arch : s.acceptTick.arch = s.arch := rfl

@[simp] theorem State.clockEdge_cursor : s.clockEdge.cursor = s.cursor := rfl
@[simp] theorem State.clockEdge_seg : s.clockEdge.seg = s.seg := rfl
@[simp] theorem State.clockEdge_sel : s.clockEdge.sel = s.sel := rfl
@[simp] theorem State.clockEdge_scanEn : s.clockEdge.scanEn = s.scanEn := rfl
@[simp] theorem State.clockEdge_dv : s.clockEdge.dv = s.dv := rfl
@[simp] theorem State.clockEdge_pressed : s.clockEdge.pressed = s.pressed := rfl
@[simp] theorem State.clockEdge_lastTs : s.clockEdge.lastTs = s.lastTs := rfl
@[simp] theorem State.clockEdge_tsValid : s.clockEdge.tsValid = s.tsValid := rfl
@[simp] theorem State.clockEdge_rsp : s.clockEdge.rsp = none := rfl
@[simp] theorem State.clockEdge_pinTrace : s.clockEdge.pinTrace = [] := rfl
@[simp] theorem State.clockEdge_inp : s.clockEdge.inp = s.feed.headD s.inp := rfl
@[simp] theorem State.clockEdge_feed : s.clockEdge.feed = s.feed.tail := rfl
@[simp] theorem State.clockEdge_draws : s.clockEdge.draws = s.draws + 1 := rfl
@[simp] theorem State.clockEdge_arch : s.clockEdge.arch = s.arch := rfl

@[simp] theorem State.arch_cursor : s.arch.cursor = s.cursor := rfl
@[simp] theorem State.arch_seg : s.arch.seg = s.seg := rfl
@[simp] theorem State.arch_sel : s.arch.sel = s.sel := rfl
@[simp] theorem State.arch_scanEn : s.arch.scanEn = s.scanEn := rfl
@[simp] theorem State.arch_dv : s.arch.dv = s.dv := rfl
@[simp] theorem State.arch_pressed : s.arch.pressed = s.pressed := rfl
@[simp] theorem State.arch_lastTs : s.arch.lastTs = s.lastTs := rfl
@[simp] theorem State.arch_tsValid : s.arch.tsValid = s.tsValid := rfl

@[simp] theorem Inputs.now_mk (r v : Bool) (w : CmdWord) (t b : Bool) (m : Nat) :
    Inputs.now ⟨r, v, w, t, b, m⟩ = BitVec.ofNat 32 m := rfl
@[simp] theorem Inputs.presenting_command (p : Inputs) (w : CmdWord) :
    p.presenting (.command w) = { p with rst := false, cmdValid := true, cmd := w, tick := false, btnFall := false } := rfl
@[simp] theorem Inputs.presenting_event (p : Inputs) (ev : BitVec 2) (t : Time) :
    p.presenting (.event ev t) =
      { p with
        rst := false, cmdValid := false, tick := ev.getLsbD 0, btnFall := ev.getLsbD 1
        ms := if ev.getLsbD 1 then nextShowing p.ms t else p.ms } := rfl

@[simp] theorem State.resetCycle_arch : s.resetCycle.arch = State.reset.arch := rfl
@[simp] theorem State.resetCycle_rsp : s.resetCycle.rsp = none := rfl
@[simp] theorem State.resetCycle_pinTrace : s.resetCycle.pinTrace = [] := rfl
@[simp] theorem State.resetCycle_inp : s.resetCycle.inp = { Inputs.idle with ms := s.inp.ms } := rfl
@[simp] theorem State.resetCycle_feed : s.resetCycle.feed = s.feed := rfl
@[simp] theorem State.resetCycle_draws : s.resetCycle.draws = s.draws + 1 := rfl

end Sys2Proof.Machine
end

