-- ==== Sys2Proof/Laws/Ops.lean ====
section
/-! SUPPORT. One lemma for each shared operation that says all it can do, and what it leaves alone. -/

namespace Sys2Proof.Machine

/-! ## The timebase -/

/-- Inputs with one count show one time, whatever else they present. -/
theorem Inputs.now_eq_of_ms {p q : Inputs} (h : p.ms = q.ms) : p.now = q.now := congrArg (BitVec.ofNat 32) h

/-- The port repeats after 2^32 ms (R91). -/
theorem Inputs.now_toNat (p : Inputs) : p.now.toNat = p.ms % 2 ^ 32 := BitVec.toNat_ofNat _ _

/-- At the moment `nextShowing` picks, the port shows the time asked for. -/
@[simp] theorem ofNat_nextShowing (m : Nat) (t : Time) : BitVec.ofNat 32 (nextShowing m t) = t := by
  rw [nextShowing, BitVec.ofNat_add, BitVec.ofNat_toNat, BitVec.setWidth_eq, BitVec.add_comm, BitVec.sub_add_cancel]

theorem le_nextShowing (m : Nat) (t : Time) : m ≤ nextShowing m t := Nat.le_add_right _ _

/-- What R116 refuses. -/
theorem State.nowGoesBack_iff (s : State) :
    s.nowGoesBack = true ↔ ∃ c rest, s.feed = c :: rest ∧ c.ms < s.inp.ms := by
  cases h : s.feed <;> simp [State.nowGoesBack, h]

/-! ## renderDigit -/

/-- The state after the three phases of R67. -/
def State.rendered (s : State) (lines : SelLines) (levels : SegLines) : State :=
  ((s.driveSel 0b0000#4).driveSeg levels).driveSel lines

/-- `renderDigit` does nothing, for an invalid operand, or all three phases (R67, R68, R69). -/
theorem renderDigit_cases (c : Config) (v : Byte) (pos : Int) (dp : Bool) (s : State) :
    renderDigit c v pos dp s = s ∧ (c.digitMax < v.toNat ∨ positionLines c pos = none ∨ 17 ≤ v.toNat) ∨
    ∃ lines, ∃ h : v.toNat < 17, v.toNat ≤ c.digitMax ∧ positionLines c pos = some lines ∧
      renderDigit c v pos dp s = s.rendered lines (segLevels dp (c.segTable ⟨v.toNat, h⟩)) := by
  by_cases hv : c.digitMax < v.toNat
  · exact .inl ⟨by simp [renderDigit, hv], .inl hv⟩
  · cases hp : positionLines c pos with
    | none => exact .inl ⟨by simp [renderDigit, hp], .inr (.inl rfl)⟩
    | some lines =>
      by_cases h : v.toNat < 17
      · exact .inr ⟨lines, h, Nat.not_lt.mp hv, rfl,
          by simp [renderDigit, hv, hp, encodeDigit, memRead_of_lt c h, State.rendered]⟩
      · exact .inl ⟨by simp [renderDigit, hp, encodeDigit, memRead_of_ge c (Nat.not_lt.mp h)],
          .inr (.inr (Nat.not_lt.mp h))⟩

section Frame

variable (c : Config) (v : Byte) (pos : Int) (dp : Bool) (s : State)

/-- A projection that the three phases keep, `renderDigit` keeps. -/
theorem renderDigit_keeps {α : Type} (f : State → α) (hf : ∀ s lines levels, f (State.rendered s lines levels) = f s) :
    f (renderDigit c v pos dp s) = f s := by
  obtain ⟨h, -⟩ | ⟨_, _, -, -, h⟩ := renderDigit_cases c v pos dp s
  · rw [h]
  · rw [h, hf]

@[simp] theorem renderDigit_cursor : (renderDigit c v pos dp s).cursor = s.cursor :=
  renderDigit_keeps c v pos dp s State.cursor fun _ _ _ => rfl
@[simp] theorem renderDigit_scanEn : (renderDigit c v pos dp s).scanEn = s.scanEn :=
  renderDigit_keeps c v pos dp s State.scanEn fun _ _ _ => rfl
@[simp] theorem renderDigit_dv : (renderDigit c v pos dp s).dv = s.dv :=
  renderDigit_keeps c v pos dp s State.dv fun _ _ _ => rfl
@[simp] theorem renderDigit_pressed : (renderDigit c v pos dp s).pressed = s.pressed :=
  renderDigit_keeps c v pos dp s State.pressed fun _ _ _ => rfl
@[simp] theorem renderDigit_lastTs : (renderDigit c v pos dp s).lastTs = s.lastTs :=
  renderDigit_keeps c v pos dp s State.lastTs fun _ _ _ => rfl
@[simp] theorem renderDigit_tsValid : (renderDigit c v pos dp s).tsValid = s.tsValid :=
  renderDigit_keeps c v pos dp s State.tsValid fun _ _ _ => rfl
@[simp] theorem renderDigit_rsp : (renderDigit c v pos dp s).rsp = s.rsp :=
  renderDigit_keeps c v pos dp s State.rsp fun _ _ _ => rfl
@[simp] theorem renderDigit_inp : (renderDigit c v pos dp s).inp = s.inp :=
  renderDigit_keeps c v pos dp s State.inp fun _ _ _ => rfl
@[simp] theorem renderDigit_feed : (renderDigit c v pos dp s).feed = s.feed :=
  renderDigit_keeps c v pos dp s State.feed fun _ _ _ => rfl
@[simp] theorem renderDigit_draws : (renderDigit c v pos dp s).draws = s.draws :=
  renderDigit_keeps c v pos dp s State.draws fun _ _ _ => rfl

end Frame

/-- With valid operands the machine's `renderDigit` does all three phases (R67). -/
theorem renderDigit_valid {v : Byte} {pos : Int} {lines : SelLines} (hv : v.toNat < 17)
    (hp : positionLines build pos = some lines) (dp : Bool) (s : State) :
    renderDigit build v pos dp s = s.rendered lines (segLevels dp (build.segTable ⟨v.toNat, hv⟩)) := by
  obtain ⟨-, h | h | h⟩ | ⟨l, _, -, hl, h⟩ := renderDigit_cases build v pos dp s
  · simp only [build_digitMax] at h
    omega
  · simp [hp] at h
  · omega
  · rw [h, Option.some.inj (hl.symm.trans hp)]

/-! ## scanTick -/

/-- A tick while scanning is disabled does nothing (R75). -/
theorem scanTick_disabled (c : Config) {s : State} (h : s.scanEn = false) : scanTick c s = s := by
  simp [scanTick, h]

/-- An effective tick renders the cursor's digit on the cursor's position, then counts down (R72). -/
theorem scanTick_enabled {s : State} (h : s.scanEn = true) :
    scanTick build s =
      (s.rendered (onehot s.cursor.toNat)
        (segLevels (dpAt build s.cursor.toNat)
          (build.segTable ⟨(digitAt s.dv s.cursor).toNat, by have := digitAt_lt s.dv s.cursor; omega⟩))).setCursor
        (s.cursor - 1#2) := by
  have hd : (digitAt s.dv s.cursor).toNat < 17 := by have := digitAt_lt s.dv s.cursor; omega
  have hp : positionLines build (s.cursor.toNat : Int) = some (onehot s.cursor.toNat) := by
    have := s.cursor.isLt
    simpa using positionLines_of_range (pos := (s.cursor.toNat : Int)) (by omega) (by omega)
  simp only [scanTick, h, if_true, renderDigit_valid hd hp, nextCursor_build]

/-- The glyph a tick of state `s` shows. -/
def tickGlyph (s : State) : Fin 17 :=
  ⟨(digitAt s.dv s.cursor).toNat, by have := digitAt_lt s.dv s.cursor; omega⟩

/-- Field by field, what an effective tick leaves: the pins show the cursor's digit, the cursor has counted down (R72). -/
theorem scanTick_effect {s : State} (h : s.scanEn = true) :
    (scanTick build s).scanEn = true ∧ (scanTick build s).dv = s.dv ∧ (scanTick build s).cursor = s.cursor - 1#2 ∧
      (scanTick build s).sel = onehot s.cursor.toNat ∧
      (scanTick build s).seg.extractLsb' 0 7 = (build.segTable (tickGlyph s)).extractLsb' 0 7 ∧
      (scanTick build s).seg.getLsbD 7 = !dpAt build s.cursor.toNat := by
  rw [scanTick_enabled h]
  exact ⟨h, rfl, rfl, rfl, segLevels_low _ _, segLevels_dp _ _⟩

/-- A tick leaves the debounce filter and the ports alone (R66, R83). -/
theorem scanTick_keeps {α : Type} (c : Config) (s : State) (f : State → α)
    (hr : ∀ s lines levels, f (State.rendered s lines levels) = f s) (hc : ∀ s v, f (State.setCursor s v) = f s) :
    f (scanTick c s) = f s := by
  unfold scanTick
  split
  · rw [hc, renderDigit_keeps _ _ _ _ _ f hr]
  · rfl

@[simp] theorem scanTick_lastTs (c : Config) (s : State) : (scanTick c s).lastTs = s.lastTs :=
  scanTick_keeps c s State.lastTs (fun _ _ _ => rfl) fun _ _ => rfl
@[simp] theorem scanTick_tsValid (c : Config) (s : State) : (scanTick c s).tsValid = s.tsValid :=
  scanTick_keeps c s State.tsValid (fun _ _ _ => rfl) fun _ _ => rfl
@[simp] theorem scanTick_pressed (c : Config) (s : State) : (scanTick c s).pressed = s.pressed :=
  scanTick_keeps c s State.pressed (fun _ _ _ => rfl) fun _ _ => rfl
@[simp] theorem scanTick_inp (c : Config) (s : State) : (scanTick c s).inp = s.inp :=
  scanTick_keeps c s State.inp (fun _ _ _ => rfl) fun _ _ => rfl
@[simp] theorem scanTick_feed (c : Config) (s : State) : (scanTick c s).feed = s.feed :=
  scanTick_keeps c s State.feed (fun _ _ _ => rfl) fun _ _ => rfl

/-! ## edgeUpdate -/

/-- An edge is accepted or dropped (R84). -/
theorem edgeUpdate_cases (c : Config) (t : Time) (s : State) :
    edgeAccepted c s t = true ∧ edgeUpdate c t s = { s with lastTs := t, tsValid := true, pressed := true } ∨
    edgeAccepted c s t = false ∧ edgeUpdate c t s = s := by
  cases h : edgeAccepted c s t
  · exact .inr ⟨rfl, by simp [edgeUpdate, h]⟩
  · exact .inl ⟨rfl, by simp [edgeUpdate, h]⟩

@[simp] theorem edgeUpdate_inp (c : Config) (t : Time) (s : State) : (edgeUpdate c t s).inp = s.inp := by
  obtain ⟨-, h⟩ | ⟨-, h⟩ := edgeUpdate_cases c t s <;> rw [h]
@[simp] theorem edgeUpdate_feed (c : Config) (t : Time) (s : State) : (edgeUpdate c t s).feed = s.feed := by
  obtain ⟨-, h⟩ | ⟨-, h⟩ := edgeUpdate_cases c t s <;> rw [h]

/-- The machine's debounce test in the words of R84. -/
theorem edgeAccepted_iff (s : State) (t : Time) :
    edgeAccepted build s t = true ↔ s.tsValid = false ∨ 200 < (t - s.lastTs).toNat := by
  change (!s.tsValid || decide (200 < (t - s.lastTs).toNat)) = true ↔ _
  rw [Bool.or_eq_true, decide_eq_true_iff, Bool.not_eq_true']

/-! ## The words the host reads -/

/-- The fields of the status word (R60, R96). -/
theorem statusWord_fields (s : State) :
    (statusWord s).getLsbD 0 = s.pressed ∧ (statusWord s).getLsbD 1 = s.scanEn ∧
      (statusWord s).extractLsb' 2 2 = s.cursor ∧ (statusWord s).extractLsb' 4 4 = s.sel ∧
      (statusWord s).extractLsb' 8 8 = s.seg := by
  refine ⟨?_, ?_, ?_, ?_, ?_⟩
  · simp only [statusWord, BitVec.getLsbD_append]
    cases s.pressed <;> rfl
  · simp only [statusWord, BitVec.getLsbD_append]
    cases s.scanEn <;> rfl
  all_goals
    ext i hi
    simp only [statusWord, BitVec.getElem_extractLsb', BitVec.getLsbD_append]
    have h : ∀ {n : Nat} (x : BitVec n) (j : Nat) (hj : j < n), x.getLsbD j = x[j] := fun x j hj => by
      simp [BitVec.getLsbD_eq_getElem hj]
  · rw [if_neg (by omega), if_neg (by omega), if_pos (by omega), ← h _ _ hi]; congr 1; omega
  · rw [if_neg (by omega), if_neg (by omega), if_neg (by omega), if_pos (by omega), ← h _ _ hi]; congr 1; omega
  · rw [if_neg (by omega), if_neg (by omega), if_neg (by omega), if_neg (by omega), ← h _ _ hi]; congr 1; omega

/-- `TAKE`'s word is 1 or 0 (R60, R87). -/
theorem takeWord_eq (s : State) : takeWord s = if s.pressed then 0x0001#16 else 0x0000#16 := by
  cases h : s.pressed <;> simp [takeWord, h]

end Sys2Proof.Machine
end

