-- ==== Sys2Proof/Laws/PerInstr.lean ====
section
/-! SUPPORT. A law of every instruction as syntax: what the encoder writes for it is a word of its own row of the opcode map, or
a pulse on its own bit of the event port. -/

namespace Sys2Proof.Laws

/-- A word belongs to a row of the opcode map (R54). -/
def inRow (m : String) (w : CmdWord) : Prop :=
  ∃ r ∈ opcodeMap, r.mnemonic = m ∧ w &&& r.mask = r.pattern

/-- A command is encoded as a word of its own row (R54), an event as a pulse on its own bit and no other (R49). -/
def RowMatch.Statement (i : Instr) : Prop :=
  match encode i with
  | .command w => i.context = .cooperative ∧ inRow i.mnemonic w
  | .event ev _ => i.context = .interrupt ∧ (ev = 0b01#2 ∧ i = .tick ∨ ev = 0b10#2 ∧ ∃ t, i = .edge t)

theorem RowMatch.nop : RowMatch.Statement .nop := ⟨rfl, _, .head _, rfl, by decide⟩
theorem RowMatch.render (val : Byte) (pos : Int) (dp : Bool) : RowMatch.Statement (.render val pos dp) := by
  refine ⟨rfl, _, .tail _ (.head _), rfl, (render_mask_iff _).mpr ?_⟩
  simp
theorem RowMatch.scanen : RowMatch.Statement .scanen := ⟨rfl, _, .tail _ (.tail _ (.head _)), rfl, by decide⟩
theorem RowMatch.scandis : RowMatch.Statement .scandis := ⟨rfl, _, .tail _ (.tail _ (.tail _ (.head _))), rfl, by decide⟩
theorem RowMatch.wrval (value : Value) : RowMatch.Statement (.wrval value) := by
  refine ⟨rfl, _, .tail _ (.tail _ (.tail _ (.tail _ (.head _)))), rfl, (wrval_mask_iff _).mpr ?_⟩
  simp
theorem RowMatch.take : RowMatch.Statement .take := ⟨rfl, opcodeMap[5], by decide, rfl, by decide⟩
theorem RowMatch.clrp : RowMatch.Statement .clrp := ⟨rfl, opcodeMap[6], by decide, rfl, by decide⟩
theorem RowMatch.rdstat : RowMatch.Statement .rdstat := ⟨rfl, opcodeMap[7], by decide, rfl, by decide⟩
theorem RowMatch.tick : RowMatch.Statement .tick := ⟨rfl, .inl ⟨rfl, rfl⟩⟩
theorem RowMatch.edge (t : Time) : RowMatch.Statement (.edge t) := ⟨rfl, .inr ⟨rfl, t, rfl⟩⟩

end Sys2Proof.Laws
end

