-- ==== Sys2Proof/Laws/Step.lean ====
section
/-! SUPPORT. What `exec` answers for each instruction, and the one inversion lemma of `step`. -/

namespace Sys2Proof.Machine

variable (s : State)

@[simp] theorem exec_nop : exec .nop s = .next s := rfl
@[simp] theorem exec_render (val : Byte) (pos : Int) (dp : Bool) :
    exec (.render val pos dp) s = .next (renderDigit build val pos dp s) := rfl
@[simp] theorem exec_scanen : exec .scanen s = .next (s.setScanEn true) := rfl
@[simp] theorem exec_scandis : exec .scandis s = .next (s.setScanEn false) := rfl
@[simp] theorem exec_wrval (value : Value) : exec (.wrval value) s = .next (s.setDv value) := rfl
@[simp] theorem exec_take : exec .take s = .next ((s.respond (takeWord s)).setPressed false) := rfl
@[simp] theorem exec_clrp : exec .clrp s = .next (s.setPressed false) := rfl
@[simp] theorem exec_rdstat : exec .rdstat s = .next (s.respond (statusWord s)) := rfl
@[simp] theorem exec_tick : exec .tick s = .next (scanTick build s) := rfl
@[simp] theorem exec_edge (t : Time) : exec (.edge t) s = .next (edgeUpdate build t s) := rfl

/-- Every operation completes (R103). -/
theorem exec_total (i : Instr) : ∃ t, exec i s = .next t := by cases i <;> exact ⟨_, rfl⟩

/-- No operation touches the input ports: they are the outside world's (R27). -/
theorem exec_ports {s t : State} {i : Instr} (h : exec i s = .next t) : t.inp = s.inp ∧ t.feed = s.feed := by
  cases i <;> obtain rfl := (Host.Outcome.next.inj h).symm <;> simp

@[simp] theorem andThen_next (f : State → Host.Outcome State Fault Refusal) : andThen (.next s) f = f s := rfl
@[simp] theorem runInstrs_nil : runInstrs [] s = .next s := rfl
@[simp] theorem runInstrs_cons (i : Instr) (is : List Instr) :
    runInstrs (i :: is) s = andThen (issue i s) (runInstrs is) := rfl

/-- A run is its first part, then its second. -/
theorem runInstrs_append (is js : List Instr) (s : State) :
    runInstrs (is ++ js) s = andThen (runInstrs is s) (runInstrs js) := by
  induction is generalizing s with
  | nil => rfl
  | cons i is ih =>
    simp only [List.cons_append, runInstrs_cons]
    cases issue i s with
    | next t => exact ih t
    | fault _ => rfl
    | refused _ => rfl

/-- The atomic form of the consume: a `TAKE`, whose answer the host goes on with. -/
@[simp] theorem consumeThen_atomic (k : Bool → State → Host.Outcome State Fault Refusal) :
    consumeThen .atomic k s = andThen (issue .take s) fun t => k (t.rspPort.getLsbD 0) t := by
  simp [consumeThen, consume, issue]

/-- The non-atomic form: the host goes on with the bit it read before the clear. -/
@[simp] theorem consumeThen_nonAtomic (between : List Instr) (k : Bool → State → Host.Outcome State Fault Refusal) :
    consumeThen (.nonAtomic between) k s = andThen (issue .rdstat s) fun t =>
      andThen (runInstrs between t) fun u =>
        andThen (if t.rspPort.getLsbD 0 then issue .clrp u else .next u) (k (t.rspPort.getLsbD 0)) := rfl

/-- What a step can be: reset, a command, a reserved word, an edge, a tick or the clock edge, in the order of R111 and R122. -/
theorem step_cases {s t : State} (h : step s = .next t) :
    (s.inp.pending = .reset ∧ t = s.resetCycle) ∨
    (∃ w i, s.inp.pending = .command w ∧ decode w = .ok i ∧ exec i s.acceptCommand = .next t) ∨
    (∃ w e, s.inp.pending = .command w ∧ decode w = .error e ∧ t = s.acceptCommand) ∨
    (∃ n, s.inp.pending = .edge n ∧ t = edgeUpdate build n s.acceptEdge) ∨
    (s.inp.pending = .tick ∧ t = scanTick build s.acceptTick) ∨
    (s.inp.pending = .nothing ∧ s.nowGoesBack = false ∧ t = s.clockEdge) := by
  unfold step at h
  cases hp : s.inp.pending with
  | reset => rw [hp] at h; exact .inl ⟨rfl, (Host.Outcome.next.inj h).symm⟩
  | command w =>
    rw [hp] at h
    cases hd : decode w with
    | ok i => exact .inr (.inl ⟨w, i, rfl, hd, by simpa only [hd] using h⟩)
    | error e =>
      simp only [hd, ignoreReserved] at h
      exact .inr (.inr (.inl ⟨w, e, rfl, hd, (Host.Outcome.next.inj h).symm⟩))
  | edge n => rw [hp] at h; exact .inr (.inr (.inr (.inl ⟨n, rfl, (Host.Outcome.next.inj h).symm⟩)))
  | tick => rw [hp] at h; exact .inr (.inr (.inr (.inr (.inl ⟨rfl, (Host.Outcome.next.inj h).symm⟩))))
  | nothing =>
    rw [hp] at h
    cases hb : s.nowGoesBack with
    | true => simp [hb] at h
    | false => simp only [hb] at h; exact .inr (.inr (.inr (.inr (.inr ⟨rfl, rfl, (Host.Outcome.next.inj h).symm⟩))))

end Sys2Proof.Machine
end

