-- ==== Sys2Proof/Tests/Slice0.lean ====
section
/-! SUPPORT. The model's own tests: words written out from spec/30_encoding.md, vectors of spec/95_test_vectors.md (V, P, S numbers),
and for each statement with hypotheses a witness that meets them. -/

namespace Sys2Proof.Tests

open Sys2Proof Sys2Proof.Machine

/-! ## Well-formedness: one ill-formed term on each side of the one check -/

theorem test_wf_refuses_position_8 : (Instr.render 0#8 8 false).wf = false := by decide
theorem test_wf_refuses_position_minus_9 : (Instr.render 0#8 (-9) false).wf = false := by decide
theorem test_wf_accepts_the_field_range :
    (Instr.render 0#8 7 false).wf = true ∧ (Instr.render 0#8 (-8) false).wf = true := by decide

/-! ## Decoding: words written out bit by bit from R46 to R49 and R54 -/

theorem test_decode_nop : decode 0b0000_00000000000000000000#24 = .ok .nop := by rfl
theorem test_decode_render : decode 0b0001_0010_000_1_0000_00000010#24 = .ok (.render 2#8 2 true) := by rfl
theorem test_decode_render_broadcast : decode 0b0001_1111_000_0_0000_00010000#24 = .ok (.render 16#8 (-1) false) := by rfl
theorem test_decode_scanen : decode 0b0010_00000000000000000000#24 = .ok .scanen := by rfl
theorem test_decode_scandis : decode 0b0011_00000000000000000000#24 = .ok .scandis := by rfl
theorem test_decode_wrval : decode 0b0100_0000_0000010011010010#24 = .ok (.wrval 1234#16) := by rfl
theorem test_decode_take : decode 0b0101_00000000000000000000#24 = .ok .take := by rfl
theorem test_decode_clrp : decode 0b0110_00000000000000000000#24 = .ok .clrp := by rfl
theorem test_decode_rdstat : decode 0b0111_00000000000000000000#24 = .ok .rdstat := by rfl
theorem test_decode_tick : decodeEvents 0b01#2 7#32 = [.tick] := by decide
theorem test_decode_edge : decodeEvents 0b10#2 7#32 = [.edge 7#32] := by decide
/-- V47 to V51. -/
theorem test_decode_reserved :
    decode 0x800000#24 = .error .opcode ∧ decode 0x200001#24 = .error .formatZ ∧ decode 0x122002#24 = .error .render ∧
      decode 0x410000#24 = .error .wrval ∧ decode 0xFFFFFF#24 = .error .opcode := ⟨rfl, rfl, rfl, rfl, rfl⟩
/-- R54: no two rows overlap. -/
theorem test_rows_do_not_overlap :
    opcodeMap.Pairwise fun r q => r.pattern &&& (r.mask &&& q.mask) ≠ q.pattern &&& (r.mask &&& q.mask) := by decide
/-- The words of P1, P2 and V6. -/
theorem test_encode_words :
    encode (.wrval 1234#16) = .command 0x4004D2#24 ∧ encode (.render 1#8 3 false) = .command 0x130001#24 ∧
      encode (.render 8#8 (-1) true) = .command 0x1F1008#24 ∧ encode .scandis = .command 0x300000#24 := by decide

/-! ## Placing a word: the host's interface -/

theorem test_table_word_command : decodeTableWord 24 0x121002 = some (.render 2#8 2 true) := by rfl
theorem test_table_word_events :
    decodeTableWord 8 1 = some .tick ∧ decodeTableWord 8 2 = some (.edge 0#32) ∧ decodeTableWord 8 3 = some (.edge 0#32) ∧
      decodeTableWord 8 0 = none := ⟨rfl, rfl, rfl, rfl⟩

/-- The next state, where there is one. -/
def nextOf (o : Host.Outcome State Fault Refusal) : Option State :=
  match o with
  | .next s => some s
  | .fault _ => none
  | .refused _ => none

/-- The response of the next step. -/
def responseOf (o : Host.Outcome State Fault Refusal) : Option RspWord := (nextOf o).bind State.rsp

/-- V44: the first step after reset runs a placed `RDSTAT`. -/
theorem test_placed_rdstat : responseOf (step (State.reset.withFetchWord 24 0x700000)) = some 0xFF0C#16 := by decide
/-- V28: a placed edge is accepted after reset. -/
theorem test_placed_edge : (nextOf (step (State.reset.withFetchWord 8 2))).map (·.pressed) = some true := by decide

/-! ## The display, with the default table of R63 -/

/-- The machine's parameters with the default glyph table. -/
def defaultBuild : Config := { build with segTable := Config.segTableDefault }

/-- A scanning state with the cursor and the value given. -/
def scanning (cur : Cursor) (dv : Value) : State := { State.reset with scanEn := true, cursor := cur, dv := dv }

/-- V1: status word and pin trace of `RENDER 2, 2, 1` from reset. -/
theorem test_render_v1 :
    statusWord (renderDigit defaultBuild 2#8 2 true State.reset) = 0x244C#16 ∧
      (renderDigit defaultBuild 2#8 2 true State.reset).pinTrace =
        [⟨0b0000#4, 0xFF#8⟩, ⟨0b0000#4, 0x24#8⟩, ⟨0b0100#4, 0x24#8⟩] := by decide
/-- V5, V7, V9, V11, V12: the blank glyph with its point, the broadcast, the first invalid value, the invalid positions. -/
theorem test_render_corners :
    statusWord (renderDigit defaultBuild 16#8 0 true State.reset) = 0x7F1C#16 ∧
      statusWord (renderDigit defaultBuild 16#8 (-1) false State.reset) = 0xFFFC#16 ∧
      renderDigit defaultBuild 17#8 0 false State.reset = State.reset ∧
      renderDigit defaultBuild 5#8 4 false State.reset = State.reset ∧
      renderDigit defaultBuild 5#8 (-2) false State.reset = State.reset := by decide
/-- P1 line 3 and V22: the first tick of 12.34, and the wrap of the cursor. -/
theorem test_tick_first_and_wrap :
    statusWord (scanTick defaultBuild (scanning 3#2 1234#16)) = 0xF98A#16 ∧
      statusWord (scanTick defaultBuild (scanning 0#2 1234#16)) = 0x991E#16 := by decide
/-- V18: 65535 shows 5, 5, 3, 5. V20: 905 shows 9 with the point at position 2. -/
theorem test_tick_digits :
    (scanTick defaultBuild (scanning 3#2 65535#16)).seg = 0x92#8 ∧ (scanTick defaultBuild (scanning 1#2 65535#16)).seg = 0xB0#8 ∧
      (scanTick defaultBuild (scanning 2#2 905#16)).seg = 0x10#8 := by decide
/-- V27: with precision 0 there is no point; with `DP_POSITION = 1` (C1) it is lit at position 1. -/
theorem test_tick_other_builds :
    (scanTick { defaultBuild with decimalPrecision := 0 } (scanning 2#2 1234#16)).seg = 0xA4#8 ∧
      (scanTick { defaultBuild with dpPosition := 1 } (scanning 1#2 1234#16)).seg = 0x30#8 := by decide
/-- V21: a tick with scanning disabled. -/
theorem test_tick_disabled : nextOf (exec .tick State.reset) = some State.reset := by decide
theorem test_scanen : (nextOf (exec .scanen State.reset)).map statusWord = some 0xFF0E#16 := by decide
theorem test_scandis : (nextOf (exec .scandis (scanning 2#2 5#16))).map statusWord = some 0xFF08#16 := by decide
theorem test_wrval : (nextOf (exec (.wrval 1234#16) State.reset)).map (·.dv) = some 0x04D2#16 := by decide

/-! ## The debounce filter -/

/-- A debounce state. -/
def filter (last : Time) (valid pressed : Bool) : State :=
  { State.reset with lastTs := last, tsValid := valid, pressed := pressed }

/-- V29: a late first edge is accepted. -/
theorem test_edge_first : nextOf (exec (.edge 5000#32) (filter 0#32 false false)) = some (filter 5000#32 true true) := by decide
/-- V30, V31, V36, V37: the window's edge, and the wrap of `now`. -/
theorem test_edge_window :
    nextOf (exec (.edge 200#32) (filter 0#32 true false)) = some (filter 0#32 true false) ∧
      nextOf (exec (.edge 201#32) (filter 0#32 true false)) = some (filter 201#32 true true) ∧
      nextOf (exec (.edge 0x10#32) (filter 0xFFFFFF00#32 true false)) = some (filter 0x10#32 true true) ∧
      nextOf (exec (.edge 0xFFFFFFC8#32) (filter 0xFFFFFF00#32 true false)) = some (filter 0xFFFFFF00#32 true false) := by
  decide
/-- V39, V40. -/
theorem test_take :
    responseOf (exec .take (filter 500#32 true true)) = some 0x0001#16 ∧
      responseOf (exec .take (filter 500#32 true false)) = some 0x0000#16 := by decide
/-- V41. -/
theorem test_clrp : nextOf (exec .clrp (filter 500#32 true true)) = some (filter 500#32 true false) := by decide
theorem test_nop : nextOf (exec .nop (filter 500#32 true true)) = some (filter 500#32 true true) := by decide

/-! ## The cycle -/

/-- A cycle that presents a command, an edge at 800 and a tick. -/
def busy (w : CmdWord) : Inputs := ⟨false, true, w, true, true, 800⟩

/-- V42: `TAKE` and an edge in one cycle: the command answers first, the event is kept. -/
theorem test_take_with_edge :
    ((nextOf (step { filter 500#32 true true with inp := busy 0x500000#24 })).bind fun a => nextOf (step a)).map
      (fun b => (b.rsp, b.pressed, b.lastTs)) = some (some 0x0001#16, true, 800#32) := by decide
/-- R116: a count that goes back is refused, also after a dropped edge; a wrap of the port is not. -/
theorem test_now_goes_back :
    step { filter 1000#32 true false with inp.ms := 1150, feed := [{ Inputs.idle with ms := 1100 }] } =
      .refused .nowWentBack ∧
    (nextOf (step { State.reset with inp.ms := 0xFFFFFFFF, feed := [{ Inputs.idle with ms := 0x100000000 }] })).map
      (·.inp.now) = some 0#32 := ⟨rfl, by decide⟩
/-- A placed tick leaves the count alone; a placed edge takes the next moment at which `now` shows its time. -/
theorem test_placed_event_now :
    ({ State.reset with inp.ms := 5 } : State).withFetchWord 8 1 = { State.reset with inp := { Inputs.idle with tick := true, ms := 5 } } ∧
      (({ State.reset with inp.ms := 5 } : State).withFetchWord 8 2).inp.ms = 2 ^ 32 := by decide
/-- R97, R108: the edge and the tick of a reserved word's cycle still come. -/
theorem test_reserved_word_keeps_events :
    (nextOf (step { State.reset with inp := busy 0x800000#24 })).map (fun t => (t.inp.btnFall, t.inp.tick, t.arch)) =
      some (true, true, State.reset.arch) := by decide
/-- R116: `rst` does not reset `now`. -/
theorem test_reset_keeps_now :
    (nextOf (step { State.reset with inp := { busy 0x500000#24 with rst := true } })).map (·.inp.now) = some 800#32 := by decide
/-- V47: a reserved word leaves the state alone. -/
theorem test_reserved_word :
    (nextOf (step (State.reset.withFetchWord 24 0x800000))).map State.arch = some State.reset.arch := by decide

/-! ## The assembler (R58, R59) -/

theorem test_assemble_render : assemble build (.render 2 2 1) = some [.render 2#8 2 true] := by decide
theorem test_assemble_refuses :
    assemble build (.render 256 0 0) = none ∧ assemble build (.render 0 8 0) = none ∧ assemble build (.render 0 0 2) = none ∧
      assemble build (.wrval 65536) = none ∧ assemble build (.edge 4294967296) = none ∧
      assemble build (.renderValue 0 0 0 256) = none := by decide

/-! ## The marks of the safety predicate -/

theorem test_marks :
    instrViolations build State.reset (.render 17#8 4 false) = [.digitOutOfRange, .positionOutOfRange] ∧
      instrViolations build (scanning 3#2 0#16) (.render 16#8 3 false) = [.renderWhileScanning] ∧
      stepViolations { State.reset with inp.ms := 1150, feed := [{ Inputs.idle with ms := 1100 }] } = [.timeWentBack] ∧
      stepViolations { State.reset with inp.ms := 0xFFFFFFFF, feed := [{ Inputs.idle with ms := 0x100000000 }] } = [] ∧
      stepViolations (State.reset.withFetchWord 24 0xFFFFFF) = [.reservedWord] := ⟨rfl, rfl, by decide, by decide, rfl⟩

/-! ## Witnesses: the hypotheses of each statement can be met -/

/-- A state whose current cycle presents these ports. -/
def presenting (p : Inputs) : State := { State.reset with inp := p }

/-- A cycle with one command. -/
def commandOnly (w : CmdWord) : Inputs := { Inputs.idle with cmdValid := true, cmd := w }

theorem witness_EncodedInstrDecodesBack :
    (Instr.render 255#8 (-8) true).wf = true ∧ (Instr.render 0#8 7 false).wf = true ∧ (Instr.edge 0#32).wf = true := by decide
theorem witness_DecodedWordEncodesBack : decode 0x1F1008#24 = .ok (.render 8#8 (-1) true) := by rfl
theorem witness_OpcodeMapSelectsTheCommand :
    (⟨"WRVAL", 0x400000#24, 0xFF0000#24⟩ : OpcodeRow) ∈ opcodeMap ∧ 0x4004D2#24 &&& 0xFF0000#24 = 0x400000#24 := by decide
theorem witness_DecodedOperandsAreTheFields :
    decode 0x180000#24 = .ok (.render 0#8 (-8) false) ∧ decode 0x40FFFF#24 = .ok (.wrval 0xFFFF#16) := ⟨rfl, rfl⟩
theorem witness_ReservedWordsAreExecutedAsNothing :
    decode 0x200001#24 = .error .formatZ ∧ (presenting (commandOnly 0x200001#24)).inp.rst = false ∧
      (presenting (commandOnly 0x200001#24)).inp.cmdValid = true ∧
      (presenting (commandOnly 0x200001#24)).inp.cmd = 0x200001#24 := ⟨rfl, rfl, rfl, rfl⟩
theorem witness_StepRunsThePresentedCommand :
    (presenting (busy 0x200000#24)).inp.rst = false ∧ (presenting (busy 0x200000#24)).inp.cmdValid = true ∧
      decode (presenting (busy 0x200000#24)).inp.cmd = .ok .scanen := ⟨rfl, rfl, rfl⟩
theorem witness_StepRunsThePresentedEvent_edge :
    (presenting { busy 0#24 with cmdValid := false }).inp.rst = false ∧
      (presenting { busy 0#24 with cmdValid := false }).inp.cmdValid = false ∧
      (presenting { busy 0#24 with cmdValid := false }).inp.btnFall = true := ⟨rfl, rfl, rfl⟩
theorem witness_StepRunsThePresentedEvent_tick :
    (presenting { Inputs.idle with tick := true }).inp.rst = false ∧
      (presenting { Inputs.idle with tick := true }).inp.cmdValid = false ∧
      (presenting { Inputs.idle with tick := true }).inp.btnFall = false ∧
      (presenting { Inputs.idle with tick := true }).inp.tick = true := ⟨rfl, rfl, rfl, rfl⟩
theorem witness_CycleRunsCommandThenEdgeThenTick :
    (presenting (busy 0x500000#24)).inp.rst = false ∧ (presenting (busy 0x500000#24)).inp.cmdValid = true ∧
      (presenting (busy 0x500000#24)).inp.btnFall = true ∧ (presenting (busy 0x500000#24)).inp.tick = true ∧
      decode (presenting (busy 0x500000#24)).inp.cmd = .ok .take := ⟨rfl, rfl, rfl, rfl, rfl⟩
theorem witness_ClockEdgeKeepsTheState :
    State.reset.inp.rst = false ∧ State.reset.inp.cmdValid = false ∧ State.reset.inp.btnFall = false ∧
      State.reset.inp.tick = false ∧ State.reset.feed = [] ∧
      ({ State.reset with feed := [busy 0#24] } : State).feed = busy 0#24 :: [] ∧ State.reset.inp.ms ≤ (busy 0#24).ms :=
  ⟨rfl, rfl, rfl, rfl, rfl, rfl, by decide⟩
theorem witness_ResetCycleForcesResetValues :
    (presenting { busy 0#24 with rst := true }).inp.rst = true ∧
      ∃ t, ({ filter 7#32 true true with inp.tick := true, scanEn := true } : State).inp.rst = false ∧
        step { filter 7#32 true true with inp.tick := true, scanEn := true } = .next t ∧
        (filter 7#32 true true).tsValid = true ∧ t.cursor = 2#2 := ⟨rfl, _, rfl, rfl, rfl, rfl⟩
theorem witness_ResetCycleEndsAndKeepsLaterCycles :
    ({ State.reset with inp := { busy 0#24 with rst := true }, feed := [busy 0x500000#24] } : State).inp.rst = true ∧
      (busy 0#24).ms ≤ (busy 0x500000#24).ms ∧ (busy 0x500000#24).rst = false ∧ (busy 0x500000#24).cmdValid = true ∧
      decode (busy 0x500000#24).cmd = .ok .take := ⟨rfl, Nat.le_refl _, rfl, rfl, rfl⟩
theorem witness_OutputPortsShowTheLatches :
    ({ State.reset with rsp := some 1#16 } : State).rsp = some 1#16 ∧ State.reset.rsp = none := ⟨rfl, rfl⟩
theorem witness_PlacedWordRunsNext :
    decodeTableWord 24 0x200000 = some .scanen ∧ decodeTableWord 8 1 = some .tick ∧
      decodeTableWord 8 3 = some (.edge 0#32) ∧ Instr.edge 0#32 ≠ .tick := ⟨rfl, rfl, rfl, by decide⟩
theorem witness_EveryOperationCompletes :
    (presenting { Inputs.idle with rst := true }).inp.rst = true ∧ (presenting (commandOnly 0xFFFFFF#24)).inp.cmdValid = true ∧
      (presenting { Inputs.idle with btnFall := true }).inp.btnFall = true ∧
      (presenting { Inputs.idle with tick := true }).inp.tick = true := ⟨rfl, rfl, rfl, rfl⟩
/-- One state for each clause: a step, a reset, a lone tick, a count that goes back by one, and one that stands. -/
theorem witness_TimebaseNeverGoesBack :
    (∃ t, step (presenting (busy 0x500000#24)) = .next t) ∧
    (∃ t, (presenting { busy 0#24 with rst := true }).inp.rst = true ∧ step (presenting { busy 0#24 with rst := true }) = .next t) ∧
    ((presenting { Inputs.idle with tick := true }).inp.btnFall = false ∧ (presenting { Inputs.idle with tick := true }).inp.tick = true) ∧
    step { State.reset with inp.ms := 1, feed := [Inputs.idle] } = .refused .nowWentBack ∧
    step { State.reset with feed := [Inputs.idle] } ≠ .refused .nowWentBack :=
  ⟨⟨_, rfl⟩, ⟨_, rfl, rfl⟩, ⟨rfl, rfl⟩, rfl, fun h => by cases h⟩
theorem witness_ValidRenderShowsTheGlyph :
    (16#8 : Byte).toNat ≤ 16 ∧ ((-1 : Int) = -1 ∨ 0 ≤ (-1 : Int) ∧ (-1 : Int) < 4) ∧
      ((3 : Int) = -1 ∨ 0 ≤ (3 : Int) ∧ (3 : Int) < 4) := by decide
theorem witness_InvalidRenderChangesNothing :
    16 < (17#8 : Byte).toNat ∧ ((4 : Int) ≠ -1 ∧ ¬(0 ≤ (4 : Int) ∧ (4 : Int) < 4)) ∧
      ((-2 : Int) ≠ -1 ∧ ¬(0 ≤ (-2 : Int) ∧ (-2 : Int) < 4)) := by decide
theorem witness_DisabledTickChangesNothing : State.reset.scanEn = false := rfl
theorem witness_EffectiveTickShowsTheCursorsDigit :
    (scanning 0#2 9999#16).scanEn = true ∧ (scanning 3#2 10000#16).scanEn = true := ⟨rfl, rfl⟩
theorem witness_PointIsLitAtTheConfiguredPosition : (scanning 2#2 0#16).scanEn = true := rfl
theorem witness_EdgeIsAcceptedOutsideTheWindow :
    (filter 0#32 false false).tsValid = false ∧ 200 < (201#32 - (filter 0#32 true false).lastTs).toNat ∧
      (filter 0#32 true false).tsValid = true ∧ (200#32 - (filter 0#32 true false).lastTs).toNat ≤ 200 := by decide
theorem witness_OnlyTakeAndRdstatRespond :
    (presenting (commandOnly 0x700000#24)).inp.rst = false ∧ (presenting (commandOnly 0x700000#24)).inp.cmdValid = true ∧
      decode (presenting (commandOnly 0x700000#24)).inp.cmd = .ok .rdstat ∧
      decode (presenting (commandOnly 0x500000#24)).inp.cmd = .ok .take := ⟨rfl, rfl, rfl, rfl⟩

/-- One change for each clause of the writers' table, with the operation that makes it. -/
theorem witness_ElementsChangeOnlyByTheirWriters :
    (∃ t, exec .tick (scanning 3#2 0#16) = .next t ∧ t.cursor ≠ (scanning 3#2 0#16).cursor ∧
      t.sel ≠ (scanning 3#2 0#16).sel) ∧
    (∃ t, exec .scanen State.reset = .next t ∧ t.scanEn ≠ State.reset.scanEn) ∧
    (∃ t, exec (.wrval 1#16) State.reset = .next t ∧ t.dv ≠ State.reset.dv) ∧
    (∃ t, exec (.edge 7#32) State.reset = .next t ∧ State.reset.pressed = false ∧ t.pressed = true ∧
      t.lastTs ≠ State.reset.lastTs) ∧
    (∃ t, exec .clrp (filter 0#32 true true) = .next t ∧ (filter 0#32 true true).pressed = true ∧ t.pressed = false) :=
  ⟨⟨_, rfl, by decide, by decide⟩, ⟨_, rfl, by decide⟩, ⟨_, rfl, by decide⟩, ⟨_, rfl, rfl, rfl, by decide⟩, ⟨_, rfl, rfl, rfl⟩⟩
theorem witness_ElementsAreReadOnlyByTheirReaders :
    Instr.nop ≠ .tick ∧ (∀ n, Instr.tick ≠ .edge n) ∧ Instr.nop ≠ .rdstat ∧ Instr.edge 0#32 ≠ .take ∧
      Instr.edge 0#32 ≠ .rdstat := by
  refine ⟨by decide, fun n h => ?_, by decide, by decide, by decide⟩
  cases h
theorem witness_IgnoredConditionsHaveNoEffect :
    16 < (17#8 : Byte).toNat ∧ (4 : Int) ≠ -1 ∧ 3 < (4 : Int) ∧ (-2 : Int) ≠ -1 ∧ (-2 : Int) < 0 ∧
      (presenting (commandOnly 0x800000#24)).inp.rst = false ∧ (presenting (commandOnly 0x800000#24)).inp.cmdValid = true ∧
      decode (presenting (commandOnly 0x800000#24)).inp.cmd = .error .opcode ∧
      (filter 0#32 true false).tsValid = true ∧ (200#32 - (filter 0#32 true false).lastTs).toNat ≤ 200 ∧
      State.reset.scanEn = false :=
  ⟨by decide, by decide, by decide, by decide, by decide, rfl, rfl, rfl, rfl, by decide, rfl⟩
theorem witness_DisplayAndDebounceCommute : isDisplay .tick = true ∧ isDebounce .take = true := ⟨rfl, rfl⟩
/-- The invariant holds in a state with a pending press, and a step leads on from it. -/
theorem witness_StepKeepsTheInvariant :
    (filter 7#32 true true).Inv ∧ ∃ t, step (filter 7#32 true true) = .next t :=
  ⟨⟨rfl, fun _ => rfl, fun h => absurd rfl h, fun h => (nomatch h), fun h => (nomatch h)⟩, _, rfl⟩
theorem witness_OnlyBroadcastRenderEnablesAll :
    (∃ t, step (presenting (commandOnly 0x1F1008#24)) = .next t ∧ t.sel = 0b1111#4 ∧
      (presenting (commandOnly 0x1F1008#24)).sel ≠ 0b1111#4) ∧ (scanning 0#2 0#16).scanEn = true :=
  ⟨⟨_, rfl, rfl, by decide⟩, rfl⟩
theorem witness_PinsNeverShowAGhostGlyph :
    ∃ t, (presenting (commandOnly 0x121002#24)).inp.rst = false ∧ step (presenting (commandOnly 0x121002#24)) = .next t ∧
      t.pinTrace.length = 3 := ⟨_, rfl, rfl, rfl⟩
theorem witness_TicksVisitEveryPositionCyclically : (scanning 1#2 0#16).scanEn = true := rfl
theorem witness_BracketFreezesTheDisplay :
    State.reset.scanEn = false ∧ Instr.scanen ∉ [.tick, .edge 0#32, .scandis, .wrval 1#16] ∧
      ∀ v p d, Instr.render v p d ∉ [.tick, .edge 0#32, .scandis, .wrval 1#16] := by
  refine ⟨rfl, by decide, fun v p d h => ?_⟩
  simp at h
theorem witness_BracketTicksDropOut :
    State.reset.scanEn = false ∧ Instr.scanen ∉ [.tick, .render 2#8 2 true, .tick, .edge 9#32] := ⟨rfl, by decide⟩
theorem witness_AcceptedEdgeIsReportedOnce :
    (filter 0#32 false false).tsValid = false ∧ Instr.take ∉ [.tick, .edge 0#32, .rdstat] ∧
      Instr.clrp ∉ [.tick, .edge 0#32, .rdstat] ∧ ∀ n, Instr.edge n ∉ [.tick, .take, .clrp] := by
  refine ⟨rfl, by decide, by decide, fun n h => ?_⟩
  simp at h
theorem witness_TakeWithEdgeInOneCycleKeepsTheEvent :
    ∃ s : State, s.inp.rst = false ∧ s.inp.cmdValid = true ∧ s.inp.btnFall = true ∧ decode s.inp.cmd = .ok .take ∧
      s.tsValid = true ∧ 200 < (s.inp.now - s.lastTs).toNat :=
  ⟨{ filter 500#32 true true with inp := busy 0x500000#24 }, rfl, rfl, rfl, rfl, rfl, by decide⟩
theorem witness_NonAtomicConsumeLosesTheEdge :
    (filter 1000#32 true true).pressed = true ∧ 200 < (1300#32 - (filter 1000#32 true true).lastTs).toNat := by decide
theorem witness_EdgeJudgedAcrossTheWrap :
    (filter 0xFFFFFF00#32 true false).tsValid = true ∧
      (filter 0xFFFFFF00#32 true false).lastTs = BitVec.ofNat 32 0xFFFFFF00 ∧
      (0xFFFFFF00 ≤ 0x100000010 ∧ 0x100000010 - 0xFFFFFF00 < 2 ^ 32 ∧ 200 < 0x100000010 - 0xFFFFFF00) ∧
      (0xFFFFFFC8 - 0xFFFFFF00 ≤ 200) ∧ (0x1FFFFFFC8 - 0xFFFFFF00 = 1 * 2 ^ 32 + 200) := by decide
theorem witness_BouncesDoNotMoveTheWindow :
    (filter 0#32 false false).tsValid = false ∧ (∀ b ∈ [100, 199, 200], b ≤ 200) ∧ 201 ≤ 201 ∧ 201 < 2 ^ 32 := by decide
theorem witness_TimestampNeverDecreases :
    (∀ n, Instr.edge n ∈ [.edge 7#32, .take] ++ [.edge 300#32] → State.reset.lastTs.toNat ≤ n.toNat) ∧
      (([.edge 7#32, .take] ++ [.edge 300#32] : List Instr).Pairwise fun i j =>
        ∀ m n, i = .edge m → j = .edge n → m.toNat ≤ n.toNat) ∧
      ∃ u t, runInstrs [.edge 7#32, .take] State.reset = .next u ∧ runInstrs [.edge 300#32] u = .next t := by
  refine ⟨fun n _ => Nat.zero_le _, ?_, _, _, rfl, rfl⟩
  simp
theorem witness_TimestampFollowsTheTimebase :
    (presenting { busy 0#24 with cmdValid := false }).lastTs.toNat ≤ (presenting { busy 0#24 with cmdValid := false }).inp.ms ∧
      (presenting { busy 0#24 with cmdValid := false }).inp.ms < 2 ^ 32 ∧
      (presenting { busy 0#24 with cmdValid := false }).inp.rst = false ∧
      ∃ t, step (presenting { busy 0#24 with cmdValid := false }) = .next t ∧ t.lastTs = 800#32 :=
  ⟨by decide, by decide, rfl, _, rfl, rfl⟩
theorem witness_RenderValueEndState : (16#8 : Byte).toNat ≤ 16 := by decide
theorem witness_ControlLoopStoresTheSample :
    (4 : Fin 17).val = (if (filter 0#32 true true).pressed then (1234#16 : Value) else 0#16).toNat % 10 ∧
      (filter 0#32 true true).pressed = true := by decide
theorem witness_UnmarkedRenderTakesEffect :
    (presenting (commandOnly 0x1F1008#24)).inp.rst = false ∧ (presenting (commandOnly 0x1F1008#24)).inp.cmdValid = true ∧
      decode (presenting (commandOnly 0x1F1008#24)).inp.cmd = .ok (.render 8#8 (-1) true) ∧
      stepViolations (presenting (commandOnly 0x1F1008#24)) = [] := ⟨rfl, rfl, rfl, rfl⟩

end Sys2Proof.Tests
end

section
/-! PROOFS. The clock edge (spec/00_scope.md R10, spec/10_state.md R25, spec/60_exceptions.md R116). -/

namespace Sys2Proof.Machine

/-- The last choice of R111's order: no reset, and every operation of the cycle taken off its port. -/
theorem Inputs.pending_eq_nothing {p : Inputs} (hrst : p.rst = false) (hcmd : p.cmdValid = false)
    (hbtn : p.btnFall = false) (htick : p.tick = false) : p.pending = .nothing := by
  simp [Inputs.pending, hrst, hcmd, hbtn, htick]

/-- What R116 asks of the platform, in the form the step tests it. -/
theorem State.nowGoesBack_eq_false {s : State} (h : ∀ c rest, s.feed = c :: rest → s.inp.ms ≤ c.ms) :
    s.nowGoesBack = false := by
  rw [Bool.eq_false_iff, ne_eq, State.nowGoesBack_iff]
  rintro ⟨c, rest, hfeed, hlt⟩
  exact Nat.not_lt.mpr (h c rest hfeed) hlt

theorem step_eq_clockEdge {s : State} (hp : s.inp.pending = .nothing) (hback : s.nowGoesBack = false) :
    step s = .next s.clockEdge := by
  simp [step, hp, hback]

/-- Settles O11: with nothing pending and a count that does not go back, the step is `clockEdge`; the ports it takes depend on
whether the feed holds a next cycle. -/
theorem clockEdgeKeepsTheState : Obligations.ClockEdgeKeepsTheState := by
  intro s hrst hcmd hbtn htick hms
  have hstep : step s = .next s.clockEdge :=
    step_eq_clockEdge (Inputs.pending_eq_nothing hrst hcmd hbtn htick) (State.nowGoesBack_eq_false hms)
  refine ⟨s.clockEdge, hstep, s.clockEdge_arch, s.clockEdge_rsp, s.clockEdge_pinTrace, ?next, ?idle⟩
  case next =>
    intro c rest hfeed
    simp [hfeed]
  case idle =>
    intro hfeed
    simp [hfeed]

end Sys2Proof.Machine
end

section
/-! PROOFS. What the shared operations leave alone, each element's writers (spec/10_state.md R31), and what a step does to the
architectural state (R10, R121; spec/60_exceptions.md R111). -/

namespace Sys2Proof.Machine

/-! ## The debounce update and the tick, field by field -/

/-- A projection that acceptance keeps, `EDGE` keeps (R83, R84). -/
theorem edgeUpdate_keeps {α : Type} (c : Config) (n : Time) (s : State) (f : State → α)
    (hf : ∀ s : State, f { s with lastTs := n, tsValid := true, pressed := true } = f s) :
    f (edgeUpdate c n s) = f s := by
  obtain ⟨-, h⟩ | ⟨-, h⟩ := edgeUpdate_cases c n s
  · rw [h, hf]
  · rw [h]

section Fields

variable (c : Config) (n : Time) (s : State)

@[simp] theorem edgeUpdate_cursor : (edgeUpdate c n s).cursor = s.cursor :=
  edgeUpdate_keeps c n s State.cursor fun _ => rfl
@[simp] theorem edgeUpdate_seg : (edgeUpdate c n s).seg = s.seg := edgeUpdate_keeps c n s State.seg fun _ => rfl
@[simp] theorem edgeUpdate_sel : (edgeUpdate c n s).sel = s.sel := edgeUpdate_keeps c n s State.sel fun _ => rfl
@[simp] theorem edgeUpdate_scanEn : (edgeUpdate c n s).scanEn = s.scanEn :=
  edgeUpdate_keeps c n s State.scanEn fun _ => rfl
@[simp] theorem edgeUpdate_dv : (edgeUpdate c n s).dv = s.dv := edgeUpdate_keeps c n s State.dv fun _ => rfl
@[simp] theorem scanTick_scanEn : (scanTick c s).scanEn = s.scanEn :=
  scanTick_keeps c s State.scanEn (fun _ _ _ => rfl) fun _ _ => rfl
@[simp] theorem scanTick_dv : (scanTick c s).dv = s.dv :=
  scanTick_keeps c s State.dv (fun _ _ _ => rfl) fun _ _ => rfl

end Fields

/-! ## The writers of each element (R31) -/

section Writers

variable {i : Instr} {s t : State} (h : exec i s = .next t)
include h

theorem exec_cursor_kept_or_tick : t.cursor = s.cursor ∨ i = .tick := by
  cases i with
  | tick => exact .inr rfl
  | _ => obtain rfl := Host.Outcome.next.inj h; exact .inl (by simp)

theorem exec_pins_kept_or_display :
    (t.seg = s.seg ∧ t.sel = s.sel) ∨ i = .tick ∨ ∃ v p d, i = .render v p d := by
  cases i with
  | tick => exact .inr (.inl rfl)
  | render v p d => exact .inr (.inr ⟨v, p, d, rfl⟩)
  | _ => obtain rfl := Host.Outcome.next.inj h; exact .inl (by simp)

theorem exec_scanEn_kept_or_scan : t.scanEn = s.scanEn ∨ i = .scanen ∨ i = .scandis := by
  cases i with
  | scanen => exact .inr (.inl rfl)
  | scandis => exact .inr (.inr rfl)
  | _ => obtain rfl := Host.Outcome.next.inj h; exact .inl (by simp)

theorem exec_dv_kept_or_wrval : t.dv = s.dv ∨ ∃ v, i = .wrval v := by
  cases i with
  | wrval v => exact .inr ⟨v, rfl⟩
  | _ => obtain rfl := Host.Outcome.next.inj h; exact .inl (by simp)

/-- Only an edge can set the flag, only `TAKE` and `CLRP` clear it. -/
theorem exec_pressed_cases :
    t.pressed = s.pressed ∨ (t.pressed = true ∧ ∃ n, i = .edge n) ∨ (t.pressed = false ∧ (i = .take ∨ i = .clrp)) := by
  cases i with
  | edge n =>
    obtain rfl := Host.Outcome.next.inj h
    obtain ⟨-, hu⟩ | ⟨-, hu⟩ := edgeUpdate_cases build n s
    · exact .inr (.inl ⟨by rw [hu], n, rfl⟩)
    · exact .inl (by rw [hu])
  | take => obtain rfl := Host.Outcome.next.inj h; exact .inr (.inr ⟨rfl, .inl rfl⟩)
  | clrp => obtain rfl := Host.Outcome.next.inj h; exact .inr (.inr ⟨rfl, .inr rfl⟩)
  | _ => obtain rfl := Host.Outcome.next.inj h; exact .inl (by simp)

/-- The timestamp moves only to the time of the edge that is executed. -/
theorem exec_stamp_kept_or_edge :
    (t.lastTs = s.lastTs ∧ t.tsValid = s.tsValid) ∨ (i = .edge t.lastTs ∧ t.tsValid = true) := by
  cases i with
  | edge n =>
    obtain rfl := Host.Outcome.next.inj h
    obtain ⟨-, hu⟩ | ⟨-, hu⟩ := edgeUpdate_cases build n s
    · exact .inr (by rw [hu]; exact ⟨rfl, rfl⟩)
    · exact .inl (by rw [hu]; exact ⟨rfl, rfl⟩)
  | _ => obtain rfl := Host.Outcome.next.inj h; exact .inl (by simp)

end Writers

/-! ## What the ports ask for -/

theorem Inputs.pending_eq_reset_iff {p : Inputs} : p.pending = .reset ↔ p.rst = true := by
  unfold Inputs.pending
  split_ifs <;> simp_all

theorem Inputs.pending_eq_command_iff {p : Inputs} {w : CmdWord} :
    p.pending = .command w ↔ p.rst = false ∧ p.cmdValid = true ∧ p.cmd = w := by
  unfold Inputs.pending
  split_ifs <;> simp_all

theorem Inputs.pending_eq_edge_iff {p : Inputs} {n : Time} :
    p.pending = .edge n ↔ p.rst = false ∧ p.cmdValid = false ∧ p.btnFall = true ∧ p.now = n := by
  unfold Inputs.pending
  split_ifs <;> simp_all

theorem Inputs.pending_eq_tick_iff {p : Inputs} :
    p.pending = .tick ↔ p.rst = false ∧ p.cmdValid = false ∧ p.btnFall = false ∧ p.tick = true := by
  unfold Inputs.pending
  split_ifs <;> simp_all

/-- Whatever the block does other than a reset, it does while `rst` is released (R122). -/
theorem Inputs.rst_eq_false_of_pending {p : Inputs} {q : Pending} (hp : p.pending = q) (hq : q ≠ .reset) :
    p.rst = false := by
  rw [Bool.eq_false_iff, ne_eq, ← Inputs.pending_eq_reset_iff, hp]
  exact hq

/-- No word on the command port starts an edge (R113). -/
theorem decode_ne_edge (w : CmdWord) (n : Time) : decode w ≠ .ok (.edge n) := by
  intro h
  simpa using decode_ok_cases h

/-! ## The step on the architectural state -/

theorem step_eq_exec_of_command {s : State} {w : CmdWord} {i : Instr} (hp : s.inp.pending = .command w)
    (hd : decode w = .ok i) : step s = exec i s.acceptCommand := by
  simp [step, hp, hd]

/-- An operation that the ports present: the command, the edge at the port's time, the tick (R25). -/
def State.presents (s : State) (i : Instr) : Prop :=
  (s.inp.cmdValid = true ∧ decode s.inp.cmd = .ok i) ∨ (s.inp.btnFall = true ∧ i = .edge s.inp.now) ∨
    (s.inp.tick = true ∧ i = .tick)

/-- A step forces the reset values, keeps the architectural state, or runs a presented operation on it. -/
theorem step_arch_cases {s t : State} (h : step s = .next t) :
    (s.inp.rst = true ∧ t.arch = State.reset.arch) ∨
    (s.inp.rst = false ∧
      (t.arch = s.arch ∨ ∃ i u, s.presents i ∧ u.arch = s.arch ∧ exec i u = .next t)) := by
  obtain ⟨hp, rfl⟩ | ⟨w, i, hp, hd, hx⟩ | ⟨w, e, hp, -, rfl⟩ | ⟨n, hp, rfl⟩ | ⟨hp, rfl⟩ | ⟨hp, -, rfl⟩ := step_cases h
  case inl => exact .inl ⟨Inputs.pending_eq_reset_iff.mp hp, s.resetCycle_arch⟩
  all_goals refine .inr ⟨Inputs.rst_eq_false_of_pending hp (by simp), ?_⟩
  · obtain ⟨-, hv, rfl⟩ := Inputs.pending_eq_command_iff.mp hp
    exact .inr ⟨i, _, .inl ⟨hv, hd⟩, s.acceptCommand_arch, hx⟩
  · exact .inl s.acceptCommand_arch
  · obtain ⟨-, -, hbtn, rfl⟩ := Inputs.pending_eq_edge_iff.mp hp
    exact .inr ⟨_, _, .inr (.inl ⟨hbtn, rfl⟩), s.acceptEdge_arch, exec_edge _ _⟩
  · obtain ⟨-, -, -, htick⟩ := Inputs.pending_eq_tick_iff.mp hp
    exact .inr ⟨_, _, .inr (.inr ⟨htick, rfl⟩), s.acceptTick_arch, exec_tick _⟩
  · exact .inl s.clockEdge_arch

/-- At a clock edge that is not refused the count does not go back (R116). -/
theorem State.ms_le_clockEdge_ms {s : State} (h : s.nowGoesBack = false) : s.inp.ms ≤ s.clockEdge.inp.ms := by
  cases hf : s.feed with
  | nil => simp [hf]
  | cons c rest =>
    have hc : ¬ c.ms < s.inp.ms := fun hlt => by
      simp [s.nowGoesBack_iff.mpr ⟨c, rest, hf, hlt⟩] at h
    simpa [hf] using Nat.not_lt.mp hc

/-- No step takes the platform's count back (R116): only a clock edge moves it. -/
theorem step_ms_le {s t : State} (h : step s = .next t) : s.inp.ms ≤ t.inp.ms := by
  obtain ⟨-, rfl⟩ | ⟨_, _, -, -, hx⟩ | ⟨_, _, -, -, rfl⟩ | ⟨_, -, rfl⟩ | ⟨-, rfl⟩ | ⟨-, hback, rfl⟩ := step_cases h
  · simp
  · obtain ⟨hinp, -⟩ := exec_ports hx
    simp [hinp]
  · simp
  · simp
  · simp
  · exact State.ms_le_clockEdge_ms hback

end Sys2Proof.Machine
end

section
/-! PROOFS. The state family: the invariant of spec/10_state.md R29 and R30, the readers and writers of R31, the ports of R25 and
R26, the reset values of R13. -/

namespace Sys2Proof.Machine

/-! ## The select lines -/

/-- The values of `SEL` with one position enabled (R16). -/
def oneLine : List SelLines := [0b0001#4, 0b0010#4, 0b0100#4, 0b1000#4]

theorem onehot_mem_oneLine {p : Nat} (hp : p < 4) : onehot p ∈ oneLine := by
  revert p
  decide

theorem oneLine_facts {v : SelLines} (hv : v ∈ oneLine) :
    legalSel v = true ∧ v ≠ 0b0000#4 ∧ v ≠ 0b1111#4 := by
  revert v
  decide

/-- What a position enables is legal and lights something (R16, R67, R71). -/
theorem positionLines_legal {pos : Int} {lines : SelLines} (h : positionLines build pos = some lines) :
    legalSel lines = true ∧ lines ≠ 0b0000#4 := by
  obtain ⟨rfl, -⟩ | ⟨h0, h4, rfl⟩ := positionLines_ne_zero h
  · decide
  · obtain ⟨hlegal, hne, -⟩ := oneLine_facts (onehot_mem_oneLine (p := pos.toNat) (by omega))
    exact ⟨hlegal, hne⟩

theorem scanTick_sel_oneLine {s : State} (hen : s.scanEn = true) :
    (scanTick build s).sel ∈ oneLine := by
  obtain ⟨-, -, -, hsel, -⟩ := scanTick_effect hen
  rw [hsel]
  exact onehot_mem_oneLine s.cursor.isLt

/-! ## The invariant -/

/-- Only the architectural state matters to the invariant. -/
theorem State.Inv.of_arch_eq {s t : State} (hs : s.Inv) (h : t.arch = s.arch) : t.Inv := by
  have hsel : t.sel = s.sel := congrArg Arch.sel h
  have hseg : t.seg = s.seg := congrArg Arch.seg h
  have hpressed : t.pressed = s.pressed := congrArg Arch.pressed h
  have hlast : t.lastTs = s.lastTs := congrArg Arch.lastTs h
  have hvalid : t.tsValid = s.tsValid := congrArg Arch.tsValid h
  constructor
  · rw [hsel]; exact hs.sel_legal
  · rw [hsel, hseg]; exact hs.dark
  · rw [hsel, hseg]; exact hs.lit
  · rw [hvalid, hpressed]; exact hs.not_pressed
  · rw [hvalid, hlast]; exact hs.no_stamp

/-- The three phases end lit, with the glyph of a table entry on lines a to g (R67). -/
theorem State.Inv.rendered {s : State} (hs : s.Inv) {lines : SelLines} (hlegal : legalSel lines = true)
    (hne : lines ≠ 0b0000#4) (dp : Bool) (v : Fin 17) :
    (s.rendered lines (segLevels dp (build.segTable v))).Inv where
  sel_legal := hlegal
  dark := fun h => absurd h hne
  lit := fun _ => ⟨v, segLevels_low _ _⟩
  not_pressed := hs.not_pressed
  no_stamp := hs.no_stamp

theorem State.Inv.renderDigit {s : State} (hs : s.Inv) (v : Byte) (pos : Int) (dp : Bool) :
    (renderDigit build v pos dp s).Inv := by
  obtain ⟨h, -⟩ | ⟨lines, _, -, hp, h⟩ := renderDigit_cases build v pos dp s
  · rw [h]; exact hs
  · obtain ⟨hlegal, hne⟩ := positionLines_legal hp
    rw [h]; exact hs.rendered hlegal hne _ _

theorem State.Inv.setCursor {s : State} (hs : s.Inv) (v : Cursor) : (s.setCursor v).Inv :=
  ⟨hs.sel_legal, hs.dark, hs.lit, hs.not_pressed, hs.no_stamp⟩

theorem State.Inv.scanTick {s : State} (hs : s.Inv) : (scanTick build s).Inv := by
  unfold Machine.scanTick
  split
  · exact (hs.renderDigit _ _ _).setCursor _
  · exact hs

/-- An accepted edge leaves `TS_VALID` set, so that nothing is asked of the flag and the timestamp (R84). -/
theorem State.Inv.edgeUpdate {s : State} (hs : s.Inv) (n : Time) : (edgeUpdate build n s).Inv := by
  obtain ⟨-, h⟩ | ⟨-, h⟩ := edgeUpdate_cases build n s
  · rw [h]; exact ⟨hs.sel_legal, hs.dark, hs.lit, nofun, nofun⟩
  · rw [h]; exact hs

/-- Clearing the flag asks nothing of the timestamp. -/
theorem State.Inv.clearPressed {s : State} (hs : s.Inv) : (s.setPressed false).Inv :=
  ⟨hs.sel_legal, hs.dark, hs.lit, fun _ => rfl, hs.no_stamp⟩

theorem exec_keeps_inv {i : Instr} {s t : State} (hs : s.Inv) (h : exec i s = .next t) : t.Inv := by
  cases i <;> obtain rfl := Host.Outcome.next.inj h
  case render v p d => exact hs.renderDigit v p d
  case tick => exact hs.scanTick
  case edge n => exact hs.edgeUpdate n
  case take => exact (hs.of_arch_eq (s.respond_arch _)).clearPressed
  case clrp => exact hs.clearPressed
  all_goals exact ⟨hs.sel_legal, hs.dark, hs.lit, hs.not_pressed, hs.no_stamp⟩

/-- Settles O40: at reset `SEL` is dark over `SEG = 0xFF`, no press is pending and `LAST_TS` is 0. -/
theorem resetMeetsTheInvariant : Obligations.ResetMeetsTheInvariant :=
  ⟨rfl, fun _ => rfl, fun h => absurd rfl h, fun _ => rfl, fun _ => rfl⟩

/-- Settles O39: a step forces the reset values, keeps the architectural state, or runs one operation on it, and each operation
keeps the invariant. -/
theorem stepKeepsTheInvariant : Obligations.StepKeepsTheInvariant := by
  intro s t hs hstep
  obtain ⟨-, ht⟩ | ⟨-, ht | ⟨i, u, -, hu, hx⟩⟩ := step_arch_cases hstep
  · exact resetMeetsTheInvariant.of_arch_eq ht
  · exact hs.of_arch_eq ht
  · exact exec_keeps_inv (hs.of_arch_eq hu) hx

/-! ## Writers -/

/-- Settles O35: each clause is the writers' lemma of its element. -/
theorem elementsChangeOnlyByTheirWriters : Obligations.ElementsChangeOnlyByTheirWriters := by
  intro i s t h
  refine ⟨(exec_cursor_kept_or_tick h).resolve_left, fun hne => (exec_pins_kept_or_display h).resolve_left ?pins,
    (exec_scanEn_kept_or_scan h).resolve_left, (exec_dv_kept_or_wrval h).resolve_left, ?rises, ?falls, ?stamp⟩
  case pins => exact not_and_or.mpr hne
  case rises =>
    intro hs ht
    obtain hk | ⟨-, hedge⟩ | ⟨hf, -⟩ := exec_pressed_cases h
    · simp [hs, ht] at hk
    · exact hedge
    · simp [ht] at hf
  case falls =>
    intro hs ht
    obtain hk | ⟨hf, -⟩ | ⟨-, hclear⟩ := exec_pressed_cases h
    · simp [hs, ht] at hk
    · simp [ht] at hf
    · exact hclear
  case stamp =>
    intro hne
    obtain ⟨hi, -⟩ := (exec_stamp_kept_or_edge h).resolve_left (not_and_or.mpr hne)
    exact ⟨_, hi⟩

/-! ## Who enables all four lines -/

theorem exec_enables_all {i : Instr} {s t : State} (h : exec i s = .next t) (ht : t.sel = 0b1111#4)
    (hs : s.sel ≠ 0b1111#4) : ∃ v d, i = .render v (-1) d ∧ v.toNat ≤ 16 := by
  obtain ⟨-, hk⟩ | rfl | ⟨v, p, d, rfl⟩ := exec_pins_kept_or_display h
  · exact absurd (hk ▸ ht) hs
  · obtain rfl := Host.Outcome.next.inj h
    cases hen : s.scanEn
    · rw [scanTick_disabled build hen] at ht
      exact absurd ht hs
    · obtain ⟨-, -, hne⟩ := oneLine_facts (scanTick_sel_oneLine hen)
      exact absurd ht hne
  · obtain rfl := Host.Outcome.next.inj h
    obtain ⟨hr, -⟩ | ⟨lines, _, hv, hp, hr⟩ := renderDigit_cases build v p d s
    · rw [hr] at ht
      exact absurd ht hs
    · rw [hr] at ht
      obtain ⟨-, rfl⟩ | ⟨h0, h4, hl⟩ := positionLines_ne_zero hp
      · exact ⟨v, d, rfl, hv⟩
      · obtain ⟨-, -, hne⟩ := oneLine_facts (onehot_mem_oneLine (p := p.toNat) (by omega))
        exact absurd (hl ▸ ht) hne

/-- Settles O41: reset ends dark, every step but a valid broadcast `RENDER` keeps `SEL` or enables one line, and a `RENDER` comes
from the command port. -/
theorem onlyBroadcastRenderEnablesAll : Obligations.OnlyBroadcastRenderEnablesAll := by
  refine ⟨?all, fun s hen => ⟨_, exec_tick s, scanTick_sel_oneLine hen⟩⟩
  case all =>
    intro s t hstep ht hs
    obtain ⟨-, ha⟩ | ⟨hrst, ha | ⟨i, u, hi, hu, hx⟩⟩ := step_arch_cases hstep
    · have h0 : t.sel = 0b0000#4 := congrArg Arch.sel ha
      rw [h0] at ht
      exact absurd ht (by decide)
    · have hk : t.sel = s.sel := congrArg Arch.sel ha
      exact absurd (hk ▸ ht) hs
    · have hk : u.sel = s.sel := congrArg Arch.sel hu
      obtain ⟨v, d, rfl, hv⟩ := exec_enables_all hx ht (hk ▸ hs)
      obtain ⟨hcmd, hd⟩ | ⟨-, hedge⟩ | ⟨-, htick⟩ := hi
      · exact ⟨hrst, hcmd, v, d, hd, hv⟩
      · cases hedge
      · cases htick

/-! ## Readers -/

/-- Whether `renderDigit` does its three phases, and what they drive, is a matter of its operands and not of the state (R67 to
R69). -/
theorem renderDigit_uniform (c : Config) (v : Byte) (pos : Int) (dp : Bool) :
    (∀ s, renderDigit c v pos dp s = s) ∨ ∃ lines levels, ∀ s, renderDigit c v pos dp s = s.rendered lines levels := by
  unfold renderDigit
  split
  · exact .inl fun _ => rfl
  · split
    · exact .inr ⟨_, _, fun _ => rfl⟩
    · exact .inl fun _ => rfl

/-- An update of the state that the three phases commute with, `renderDigit` commutes with. -/
theorem renderDigit_comm (g : State → State) (c : Config) (v : Byte) (pos : Int) (dp : Bool) (s : State)
    (hg : ∀ s lines levels, State.rendered (g s) lines levels = g (State.rendered s lines levels) := by intros; rfl) :
    renderDigit c v pos dp (g s) = g (renderDigit c v pos dp s) := by
  obtain h | ⟨lines, levels, h⟩ := renderDigit_uniform c v pos dp
  · rw [h, h]
  · rw [h, h, hg]

/-- `edgeUpdate` reads `LAST_TS` and `TS_VALID` and nothing else: it commutes with an update that keeps both. -/
theorem edgeUpdate_comm (g : State → State) (c : Config) (n : Time) (s : State)
    (hlast : ∀ s, (g s).lastTs = s.lastTs := by intros; rfl) (hvalid : ∀ s, (g s).tsValid = s.tsValid := by intros; rfl)
    (hg : ∀ s : State, { g s with lastTs := n, tsValid := true, pressed := true } =
      g { s with lastTs := n, tsValid := true, pressed := true } := by intros; rfl) :
    edgeUpdate c n (g s) = g (edgeUpdate c n s) := by
  have hacc : edgeAccepted c (g s) n = edgeAccepted c s n := by
    unfold edgeAccepted edgeDelta
    rw [hlast, hvalid]
  unfold edgeUpdate
  rw [hacc]
  split
  · exact hg s
  · rfl

/-- `scanTick` reads `SCAN_EN`, `DV` and `CURSOR`: it commutes with an update that keeps them and that its writes commute with. -/
theorem scanTick_comm (g : State → State) (c : Config) (s : State)
    (hen : ∀ s, (g s).scanEn = s.scanEn := by intros; rfl) (hdv : ∀ s, (g s).dv = s.dv := by intros; rfl)
    (hcur : ∀ s, (g s).cursor = s.cursor := by intros; rfl)
    (hr : ∀ s lines levels, State.rendered (g s) lines levels = g (State.rendered s lines levels) := by intros; rfl)
    (hc : ∀ s v, State.setCursor (g s) v = g (State.setCursor s v) := by intros; rfl) :
    scanTick c (g s) = g (scanTick c s) := by
  unfold scanTick
  rw [hen, hdv, hcur, renderDigit_comm g c _ _ _ _ hr]
  split
  · exact hc _ _
  · rfl

section Readers

variable (i : Instr) (s : State)

theorem exec_reads_dv_only_in_tick (x : Value) (hi : i ≠ .tick) :
    ∃ t, exec i s = .next t ∧
      (exec i { s with dv := x } = .next { t with dv := x } ∨
        (∃ v, i = .wrval v) ∧ exec i { s with dv := x } = .next t) := by
  cases i with
  | tick => exact absurd rfl hi
  | wrval v => exact ⟨_, rfl, .inr ⟨⟨v, rfl⟩, rfl⟩⟩
  | render v p d =>
    exact ⟨_, rfl, .inl (congrArg Host.Outcome.next (renderDigit_comm (State.setDv · x) build v p d s))⟩
  | edge n =>
    exact ⟨_, rfl, .inl (congrArg Host.Outcome.next (edgeUpdate_comm (State.setDv · x) build n s))⟩
  | _ => exact ⟨_, rfl, .inl rfl⟩

theorem exec_reads_stamp_only_in_edge (x : Time) (b : Bool) (hi : ∀ n, i ≠ .edge n) :
    ∃ t, exec i s = .next t ∧ exec i { s with lastTs := x, tsValid := b } = .next { t with lastTs := x, tsValid := b } := by
  cases i with
  | edge n => exact absurd rfl (hi n)
  | render v p d =>
    exact ⟨_, rfl, congrArg Host.Outcome.next (renderDigit_comm (fun s => { s with lastTs := x, tsValid := b }) build v p d s)⟩
  | tick =>
    exact ⟨_, rfl, congrArg Host.Outcome.next (scanTick_comm (fun s => { s with lastTs := x, tsValid := b }) build s)⟩
  | _ => exact ⟨_, rfl, rfl⟩

theorem exec_reads_scanEn_only_in_tick_and_rdstat (b : Bool) (htick : i ≠ .tick) (hrd : i ≠ .rdstat) :
    ∃ t, exec i s = .next t ∧
      (exec i { s with scanEn := b } = .next { t with scanEn := b } ∨
        (i = .scanen ∨ i = .scandis) ∧ exec i { s with scanEn := b } = .next t) := by
  cases i with
  | tick => exact absurd rfl htick
  | rdstat => exact absurd rfl hrd
  | scanen => exact ⟨_, rfl, .inr ⟨.inl rfl, rfl⟩⟩
  | scandis => exact ⟨_, rfl, .inr ⟨.inr rfl, rfl⟩⟩
  | render v p d =>
    exact ⟨_, rfl, .inl (congrArg Host.Outcome.next (renderDigit_comm (State.setScanEn · b) build v p d s))⟩
  | edge n =>
    exact ⟨_, rfl, .inl (congrArg Host.Outcome.next (edgeUpdate_comm (State.setScanEn · b) build n s))⟩
  | _ => exact ⟨_, rfl, .inl rfl⟩

theorem exec_reads_cursor_only_in_tick_and_rdstat (x : Cursor) (htick : i ≠ .tick) (hrd : i ≠ .rdstat) :
    ∃ t, exec i s = .next t ∧ exec i { s with cursor := x } = .next { t with cursor := x } := by
  cases i with
  | tick => exact absurd rfl htick
  | rdstat => exact absurd rfl hrd
  | render v p d =>
    exact ⟨_, rfl, congrArg Host.Outcome.next (renderDigit_comm (State.setCursor · x) build v p d s)⟩
  | edge n =>
    exact ⟨_, rfl, congrArg Host.Outcome.next (edgeUpdate_comm (State.setCursor · x) build n s)⟩
  | _ => exact ⟨_, rfl, rfl⟩

/-- `EDGE` sets the flag or keeps it by a test that does not read it (R86). -/
theorem edgeUpdate_setPressed (c : Config) (n : Time) (b : Bool) :
    edgeUpdate c n (s.setPressed b) = (edgeUpdate c n s).setPressed (edgeUpdate c n (s.setPressed b)).pressed := by
  have hacc : edgeAccepted c (s.setPressed b) n = edgeAccepted c s n := rfl
  unfold edgeUpdate
  rw [hacc]
  split <;> rfl

theorem exec_reads_pressed_only_in_take_and_rdstat (b : Bool) (htake : i ≠ .take) (hrd : i ≠ .rdstat) :
    ∃ t u, exec i s = .next t ∧ exec i { s with pressed := b } = .next u ∧ u = { t with pressed := u.pressed } := by
  cases i with
  | take => exact absurd rfl htake
  | rdstat => exact absurd rfl hrd
  | edge n => exact ⟨_, _, rfl, rfl, edgeUpdate_setPressed s build n b⟩
  | render v p d =>
    have h := renderDigit_comm (State.setPressed · b) build v p d s
    exact ⟨_, _, rfl, congrArg Host.Outcome.next h, rfl⟩
  | tick =>
    have h := scanTick_comm (State.setPressed · b) build s
    exact ⟨_, _, rfl, congrArg Host.Outcome.next h, rfl⟩
  | _ => exact ⟨_, _, rfl, rfl, rfl⟩

/-- `u` is `t` but for the pins and their trace, and its latches are `t`'s or hold `x` and `y`. -/
def State.sameButPins (x : SegLines) (y : SelLines) (t u : State) : Prop :=
  u = { t with seg := u.seg, sel := u.sel, pinTrace := u.pinTrace } ∧
    (u.seg = t.seg ∧ u.sel = t.sel ∨ u.seg = x ∧ u.sel = y)

theorem renderDigit_sameButPins (c : Config) (v : Byte) (pos : Int) (dp : Bool) (x : SegLines) (y : SelLines) :
    State.sameButPins x y (renderDigit c v pos dp s) (renderDigit c v pos dp { s with seg := x, sel := y }) := by
  obtain h | ⟨lines, levels, h⟩ := renderDigit_uniform c v pos dp
  · rw [h, h]; exact ⟨rfl, .inr ⟨rfl, rfl⟩⟩
  · rw [h, h]; exact ⟨rfl, .inl ⟨rfl, rfl⟩⟩

theorem State.sameButPins.setCursor {x : SegLines} {y : SelLines} {t u : State} (h : State.sameButPins x y t u) (v : Cursor) :
    State.sameButPins x y (t.setCursor v) (u.setCursor v) :=
  ⟨congrArg (State.setCursor · v) h.1, h.2⟩

theorem scanTick_sameButPins (c : Config) (x : SegLines) (y : SelLines) :
    State.sameButPins x y (scanTick c s) (scanTick c { s with seg := x, sel := y }) := by
  unfold scanTick
  dsimp only
  split
  · exact (renderDigit_sameButPins s c _ _ _ x y).setCursor _
  · exact ⟨rfl, .inr ⟨rfl, rfl⟩⟩

theorem exec_reads_pins_only_in_rdstat (x : SegLines) (y : SelLines) (hrd : i ≠ .rdstat) :
    ∃ t u, exec i s = .next t ∧ exec i { s with seg := x, sel := y } = .next u ∧ State.sameButPins x y t u := by
  cases i with
  | rdstat => exact absurd rfl hrd
  | render v p d => exact ⟨_, _, rfl, rfl, renderDigit_sameButPins s build v p d x y⟩
  | tick => exact ⟨_, _, rfl, rfl, scanTick_sameButPins s build x y⟩
  | edge n =>
    have h := edgeUpdate_comm (fun s => { s with seg := x, sel := y }) build n s
    exact ⟨_, _, rfl, congrArg Host.Outcome.next h, rfl, .inr ⟨rfl, rfl⟩⟩
  | _ => exact ⟨_, _, rfl, rfl, rfl, .inr ⟨rfl, rfl⟩⟩

end Readers

/-- Settles O36: each clause is the readers' lemma of its element. -/
theorem elementsAreReadOnlyByTheirReaders : Obligations.ElementsAreReadOnlyByTheirReaders := fun i s =>
  ⟨exec_reads_dv_only_in_tick i s, exec_reads_stamp_only_in_edge i s, exec_reads_scanEn_only_in_tick_and_rdstat i s,
    exec_reads_cursor_only_in_tick_and_rdstat i s, exec_reads_pressed_only_in_take_and_rdstat i s,
    exec_reads_pins_only_in_rdstat i s⟩

/-! ## The timestamp -/

/-- Two edges come in the order of their times. -/
def timesOrdered (i j : Instr) : Prop := ∀ m n, i = .edge m → j = .edge n → m.toNat ≤ n.toNat

theorem andThen_eq_next_iff {o : Host.Outcome State Fault Refusal} {f : State → Host.Outcome State Fault Refusal} {t : State} :
    andThen o f = .next t ↔ ∃ a, o = .next a ∧ f a = .next t := by
  cases o <;> simp [andThen]

/-- Along a run of ordered times none of which lies below the timestamp, the timestamp does not fall, and no later edge lies below
it. -/
theorem runInstrs_lastTs_le {xs ys : List Instr} {s u : State} (hlow : ∀ n, .edge n ∈ xs ++ ys → s.lastTs.toNat ≤ n.toNat)
    (hord : (xs ++ ys).Pairwise timesOrdered) (h : runInstrs xs s = .next u) :
    s.lastTs.toNat ≤ u.lastTs.toNat ∧ ∀ n, .edge n ∈ ys → u.lastTs.toNat ≤ n.toNat := by
  induction xs generalizing s with
  | nil =>
    obtain rfl := Host.Outcome.next.inj h
    exact ⟨Nat.le_refl _, hlow⟩
  | cons i is ih =>
    obtain ⟨a, ha, hrun⟩ := andThen_eq_next_iff.mp h
    obtain ⟨hfirst, hrest⟩ := List.pairwise_cons.mp hord
    obtain ⟨hk, -⟩ | ⟨hi, -⟩ := exec_stamp_kept_or_edge ha
    · have hka : a.lastTs = s.lastTs := hk
      rw [← hka]
      exact ih (fun n hn => hka ▸ hlow n (.tail _ hn)) hrest hrun
    · have hsa : s.lastTs.toNat ≤ a.lastTs.toNat := hlow _ (hi ▸ .head _)
      obtain ⟨hau, hlater⟩ := ih (fun n hn => hfirst _ hn _ _ hi rfl) hrest hrun
      exact ⟨hsa.trans hau, hlater⟩

/-- Settles O54: the lemma on the run's first part gives both what holds at the cut and its own premise for the second. -/
theorem timestampNeverDecreases : Obligations.TimestampNeverDecreases := by
  intro xs ys s u t hlow hord hxs hys
  obtain ⟨hsu, hlater⟩ := runInstrs_lastTs_le hlow hord hxs
  obtain ⟨-, hordYs, -⟩ := List.pairwise_append.mp hord
  obtain ⟨hut, -⟩ := runInstrs_lastTs_le (ys := []) (by simpa using hlater) (by rw [List.append_nil]; exact hordYs) hys
  exact ⟨hsu, hut⟩

/-- A step other than a reset keeps the timestamp or moves it to the port's time. -/
theorem step_lastTs_cases {s t : State} (h : step s = .next t) :
    (s.inp.rst = true ∧ t.lastTs = 0#32) ∨ t.lastTs = s.lastTs ∨ t.lastTs = s.inp.now := by
  obtain ⟨hrst, ha⟩ | ⟨-, ha | ⟨i, u, hi, hu, hx⟩⟩ := step_arch_cases h
  · exact .inl ⟨hrst, congrArg Arch.lastTs ha⟩
  · exact .inr (.inl (congrArg Arch.lastTs ha))
  · obtain ⟨hk, -⟩ | ⟨rfl, -⟩ := exec_stamp_kept_or_edge hx
    · exact .inr (.inl (hk.trans (congrArg Arch.lastTs hu)))
    · obtain ⟨-, hd⟩ | ⟨-, hedge⟩ | ⟨-, htick⟩ := hi
      · exact absurd hd (decode_ne_edge _ _)
      · exact .inr (.inr (Instr.edge.inj hedge))
      · cases htick

/-- Settles O55: before a wrap the port shows the count itself, which is at least the timestamp and which no step takes back. -/
theorem timestampFollowsTheTimebase : Obligations.TimestampFollowsTheTimebase := by
  intro s t hle hwrap hstep
  have hms : s.inp.ms ≤ t.inp.ms := step_ms_le hstep
  have hnow : s.inp.now.toNat = s.inp.ms := by rw [Inputs.now_toNat, Nat.mod_eq_of_lt hwrap]
  obtain ⟨hrst, ht⟩ | ht | ht := step_lastTs_cases hstep
  · exact ⟨by simp [ht], fun hn => by simp [hn] at hrst⟩
  · rw [ht]
    exact ⟨hle.trans hms, fun _ => Nat.le_refl _⟩
  · rw [ht, hnow]
    exact ⟨hms, fun _ => hle⟩

/-! ## The ports -/

/-- Settles O8: with `rst` released and a word valid, the command is what is pending, and the step runs what it decodes to. -/
theorem stepRunsThePresentedCommand : Obligations.StepRunsThePresentedCommand := fun _ _ hrst hcmd hd =>
  step_eq_exec_of_command (Inputs.pending_eq_command_iff.mpr ⟨hrst, hcmd, rfl⟩) hd

/-- Settles O14: every element of the reset state is written out in its definition. -/
theorem resetStateHoldsResetValues : Obligations.ResetStateHoldsResetValues := ⟨rfl, rfl, rfl, rfl, rfl⟩

/-- Settles O15: the latches are driven as they are; the response port depends on whether a response is present. -/
theorem outputPortsShowTheLatches : Obligations.OutputPortsShowTheLatches := by
  refine fun s => ⟨rfl, rfl, rfl, fun w hw => ?present, fun hnone => ?idle⟩
  case present => simp [State.outputs, State.rspPort, hw]
  case idle => simp [State.outputs, State.rspPort, hnone]

end Sys2Proof.Machine
end

section
/-! PROOFS. The memory family: runs of operations one after the other (spec/20_memory.md R38), the bracket `SCANDIS` … `SCANEN` of
R39 and R41, the press flag between an edge and its `TAKE` (R39, R40, R42), the glyph table (R32, R34). -/

namespace Sys2Proof.Machine

/-! ## One operation, and a run of them -/

theorem issue_take (s : State) :
    issue .take s = .next ((s.clearOutputs.respond (takeWord s)).setPressed false) := rfl
theorem issue_rdstat (s : State) : issue .rdstat s = .next (s.clearOutputs.respond (statusWord s)) := rfl
theorem issue_edge (n : Time) (s : State) : issue (.edge n) s = .next (edgeUpdate build n s.clearOutputs) := rfl

/-- Every operation of a run completes (R103). -/
theorem issue_total (i : Instr) (s : State) : ∃ t, issue i s = .next t := exec_total s.clearOutputs i

/-- A run completes, and at its end holds what held at its start and each of its operations keeps. -/
theorem runInstrs_induction {P : State → Prop} {is : List Instr} {s : State} (hs : P s)
    (hstep : ∀ i ∈ is, ∀ a b, P a → issue i a = .next b → P b) : ∃ t, runInstrs is s = .next t ∧ P t := by
  induction is generalizing s with
  | nil => exact ⟨s, runInstrs_nil s, hs⟩
  | cons i is ih =>
    obtain ⟨a, ha⟩ := issue_total i s
    rw [runInstrs_cons, ha, andThen_next]
    exact ih (hstep i (.head _) s a hs ha) fun j hj => hstep j (.tail _ hj)

/-! ## The bracket -/

/-- The tick of a bracket clears the outputs of the operation before it and does nothing else (R75). -/
theorem issue_tick_disabled {s : State} (hen : s.scanEn = false) : issue .tick s = .next s.clearOutputs :=
  congrArg Host.Outcome.next (scanTick_disabled build (s := s.clearOutputs) hen)

/-- While scanning is disabled an operation other than `SCANEN` leaves it disabled and the cursor where it is, and the display
latches too unless it is a `RENDER` (R39, R41). -/
theorem issue_in_bracket {i : Instr} {s t : State} (h : issue i s = .next t) (hen : s.scanEn = false) (hi : i ≠ .scanen) :
    t.scanEn = false ∧ t.cursor = s.cursor ∧ ((∀ v p d, i ≠ .render v p d) → t.seg = s.seg ∧ t.sel = s.sel) := by
  by_cases htick : i = .tick
  · subst htick
    obtain rfl := Host.Outcome.next.inj ((issue_tick_disabled hen).symm.trans h)
    exact ⟨hen, rfl, fun _ => ⟨rfl, rfl⟩⟩
  · refine ⟨?_, (exec_cursor_kept_or_tick h).resolve_right htick, fun hrender => ?_⟩
    · obtain hk | rfl | rfl := exec_scanEn_kept_or_scan h
      · exact hk.trans hen
      · exact absurd rfl hi
      · obtain rfl := Host.Outcome.next.inj h
        rfl
    · obtain hk | rfl | ⟨v, p, d, rfl⟩ := exec_pins_kept_or_display h
      · exact hk
      · exact absurd rfl htick
      · exact absurd rfl (hrender v p d)

/-- Settles O45: what the statement says of the run's end, every operation of the bracket keeps. -/
theorem bracketFreezesTheDisplay : Obligations.BracketFreezesTheDisplay := by
  intro is s hen hscanen
  refine runInstrs_induction ⟨hen, rfl, fun _ => ⟨rfl, rfl⟩⟩ ?step
  case step =>
    rintro i hi a b ⟨haEn, haCur, haPins⟩ hb
    obtain ⟨hbEn, hbCur, hbPins⟩ := issue_in_bracket hb haEn (ne_of_mem_of_not_mem hi hscanen)
    refine ⟨hbEn, hbCur.trans haCur, fun hrender => ?_⟩
    obtain ⟨hseg, hsel⟩ := haPins hrender
    obtain ⟨hseg', hsel'⟩ := hbPins fun v p d => ne_of_mem_of_not_mem hi (hrender v p d)
    exact ⟨hseg'.trans hseg, hsel'.trans hsel⟩

/-- Clearing the outputs before a run does not show in the architectural state: the run's first operation clears them anyway. -/
theorem runInstrs_of_clearOutputs {is : List Instr} {s u : State} (h : runInstrs is s.clearOutputs = .next u) :
    ∃ v, runInstrs is s = .next v ∧ v.arch = u.arch := by
  cases is with
  | nil =>
    obtain rfl := Host.Outcome.next.inj h
    exact ⟨s, rfl, rfl⟩
  | cons i is => exact ⟨u, h, rfl⟩

/-- Settles O46, by induction on the run: a tick only clears the outputs, and any other operation is the first of both runs. -/
theorem bracketTicksDropOut : Obligations.BracketTicksDropOut := by
  intro is
  induction is with
  | nil => exact fun s _ _ => ⟨s, s, rfl, rfl, rfl⟩
  | cons i is ih =>
    intro s hen hscanen
    have hi : i ≠ .scanen := (List.ne_of_not_mem_cons hscanen).symm
    have his : .scanen ∉ is := List.not_mem_of_not_mem_cons hscanen
    by_cases htick : i = .tick
    · subst htick
      obtain ⟨t, u, ht, hu, hut⟩ := ih s.clearOutputs hen his
      obtain ⟨v, hv, hvu⟩ := runInstrs_of_clearOutputs hu
      refine ⟨t, v, ?_, ?_, hvu.trans hut⟩
      · rw [runInstrs_cons, issue_tick_disabled hen, andThen_next, ht]
      · rw [List.filter_cons_of_neg (by simp), hv]
    · obtain ⟨a, ha⟩ := issue_total i s
      obtain ⟨haEn, -⟩ := issue_in_bracket ha hen hi
      obtain ⟨t, u, ht, hu, hut⟩ := ih a haEn his
      refine ⟨t, u, ?_, ?_, hut⟩
      · rw [runInstrs_cons, ha, andThen_next, ht]
      · rw [List.filter_cons_of_pos (by simpa using htick), runInstrs_cons, ha, andThen_next, hu]

/-! ## The press flag -/

/-- An edge that meets the debounce test is accepted (R84). -/
theorem edgeUpdate_of_accepted {s : State} {n : Time} (h : s.tsValid = false ∨ 200 < (n - s.lastTs).toNat) :
    edgeUpdate build n s = { s with lastTs := n, tsValid := true, pressed := true } :=
  if_pos ((edgeAccepted_iff s n).mpr h)

/-- A `TAKE` after operations that keep the flag at `b` answers `b` and clears it (R87). -/
theorem runInstrs_then_take {is : List Instr} {s : State} {b : Bool} (hs : s.pressed = b)
    (hkeep : ∀ i ∈ is, ∀ a c, a.pressed = b → issue i a = .next c → c.pressed = b) :
    ∃ t, runInstrs (is ++ [.take]) s = .next t ∧ t.rsp = some (if b then 0x0001#16 else 0x0000#16) ∧ t.pressed = false := by
  obtain ⟨a, ha, hab⟩ := runInstrs_induction (P := (·.pressed = b)) hs hkeep
  refine ⟨(a.clearOutputs.respond (takeWord a)).setPressed false, ?_, ?_, rfl⟩
  · rw [runInstrs_append, ha, andThen_next, runInstrs_cons, issue_take, andThen_next, runInstrs_nil]
  · rw [← hab, ← takeWord_eq]
    rfl

/-- Only `TAKE` and `CLRP` clear the flag (R31). -/
theorem issue_keeps_pressed {i : Instr} {a c : State} (htake : i ≠ .take) (hclrp : i ≠ .clrp) (ha : a.pressed = true)
    (h : issue i a = .next c) : c.pressed = true := by
  obtain hk | ⟨hc, -⟩ | ⟨-, rfl | rfl⟩ := exec_pressed_cases h
  · exact hk.trans ha
  · exact hc
  · exact absurd rfl htake
  · exact absurd rfl hclrp

/-- Only an edge sets the flag (R31). -/
theorem issue_keeps_not_pressed {i : Instr} {a c : State} (hedge : ∀ n, i ≠ .edge n) (ha : a.pressed = false)
    (h : issue i a = .next c) : c.pressed = false := by
  obtain hk | ⟨-, n, rfl⟩ | ⟨hc, -⟩ := exec_pressed_cases h
  · exact hk.trans ha
  · exact absurd rfl (hedge n)
  · exact hc

/-- Settles O47: the accepted edge sets the flag and what follows keeps it up to the `TAKE`; a `TAKE` clears it and what follows
keeps it clear. -/
theorem acceptedEdgeIsReportedOnce : Obligations.AcceptedEdgeIsReportedOnce := by
  refine ⟨fun is s n hacc htake hclrp => ?reported, fun is s hedge => ?once⟩
  case reported =>
    have hpressed : (edgeUpdate build n s.clearOutputs).pressed = true := by
      rw [edgeUpdate_of_accepted (s := s.clearOutputs) hacc]
    rw [List.cons_append, runInstrs_cons, issue_edge, andThen_next]
    exact runInstrs_then_take hpressed fun i hi _ _ =>
      issue_keeps_pressed (ne_of_mem_of_not_mem hi htake) (ne_of_mem_of_not_mem hi hclrp)
  case once =>
    rw [List.cons_append, runInstrs_cons, issue_take, andThen_next]
    obtain ⟨t, ht, hrsp, -⟩ := runInstrs_then_take (b := false)
      (s := (s.clearOutputs.respond (takeWord s)).setPressed false) rfl fun i hi _ _ =>
        issue_keeps_not_pressed fun n => ne_of_mem_of_not_mem hi (hedge n)
    exact ⟨t, ht, hrsp⟩

theorem step_of_accepted_edge {s : State} {n : Time} (hp : s.inp.pending = .edge n)
    (hacc : s.tsValid = false ∨ 200 < (n - s.lastTs).toNat) :
    step s = .next { s.acceptEdge with lastTs := n, tsValid := true, pressed := true } := by
  have hedge : step s = .next (edgeUpdate build n s.acceptEdge) := by simp [step, hp]
  rw [hedge, edgeUpdate_of_accepted (s := s.acceptEdge) hacc]

/-- Settles O48: the cycle's first step is the `TAKE`, its second the edge, which leaves the response on the port and finds the
timestamp and the count as they were (R111). -/
theorem takeWithEdgeInOneCycleKeepsTheEvent : Obligations.TakeWithEdgeInOneCycleKeepsTheEvent := by
  intro s hrst hcmd hbtn hd hacc
  have htake : step s = .next ((s.acceptCommand.respond (takeWord s)).setPressed false) :=
    step_eq_exec_of_command (Inputs.pending_eq_command_iff.mpr ⟨hrst, hcmd, rfl⟩) hd
  have hedge : ((s.acceptCommand.respond (takeWord s)).setPressed false).inp.pending = .edge s.inp.now :=
    Inputs.pending_eq_edge_iff.mpr ⟨hrst, rfl, hbtn, rfl⟩
  exact ⟨_, _, htake, step_of_accepted_edge hedge hacc, congrArg some (takeWord_eq s), rfl, rfl⟩

/-- Settles O33: `RDSTAT` leaves every element its word reads as it was, `TAKE` leaves the flag clear. -/
theorem rdstatRepeatsAndTakeDoesNot : Obligations.RdstatRepeatsAndTakeDoesNot := by
  refine fun s => ⟨⟨_, _, issue_rdstat s, issue_rdstat _, rfl, rfl, rfl⟩, ?take⟩
  case take => exact ⟨_, _, issue_take s, issue_take _, congrArg some (takeWord_eq s), rfl⟩

/-! ## The glyph table -/

/-- The table has the indices 0 to 16, at any configuration (R32, R34, R36). -/
theorem memRead_isSome_iff (c : Config) (v : Nat) : (memRead c v).isSome = true ↔ v ≤ 16 := by
  obtain h | h := Nat.lt_or_ge v 17
  · simp [memRead_of_lt c h, Nat.le_of_lt_succ h]
  · simp [memRead_of_ge c h, Nat.not_le.mpr h]

/-- The one entry the machine fixes has bits 6:0 set, whatever the open table holds there (R64). -/
theorem segTable_blank_low : (build.segTable 16).extractLsb' 0 7 = 0x7F#7 := by
  change (Config.openSegTable 16 ||| 0x7F#8).extractLsb' 0 7 = 0x7F#7
  rw [BitVec.extractLsb'_or]
  exact BitVec.or_allOnes

/-- Settles O34: the index range, and the blank entry. -/
theorem glyphTableHasSeventeenEntries : Obligations.GlyphTableHasSeventeenEntries :=
  ⟨memRead_isSome_iff build, segTable_blank_low⟩

end Sys2Proof.Machine
end

section
/-! PROOFS. The encoding family, the words: decoding and encoding are inverse (spec/30_encoding.md R57), a word is its fields
(R46 to R53), the opcode map (R54), the reserved words (R55), the event port (R49). -/

namespace Sys2Proof

/-! ## Decoding what the encoder writes -/

theorem decode_encodeRender {val : Byte} {pos : Int} {dp : Bool} (hpos : positionFits pos = true) :
    decode (encodeRender val pos dp) = .ok (.render val pos dp) := by
  rw [decode_op1 (encodeRender_op val pos dp)]
  simp [decodeRender, toInt_ofInt_of_fits hpos]

theorem decode_encodeWrval (value : Value) : decode (encodeWrval value) = .ok (.wrval value) := by
  rw [decode_op4 (encodeWrval_op value)]
  simp [decodeWrval]

/-- Settles O2: only `RENDER` and `WRVAL` write operands into their word; a format-Z word is a constant, and an event port with one
bit set carries one event. -/
theorem encodedInstrDecodesBack : Obligations.EncodedInstrDecodesBack := by
  intro i hwf
  cases i with
  | render val pos dp => exact decode_encodeRender hwf
  | wrval value => exact decode_encodeWrval value
  | _ => rfl

/-! ## Encoding what the decoder reads -/

section Fields

variable {w : CmdWord}

/-- A format-Z word is its opcode over twenty zeros (R46). -/
theorem encodeZ_of_fields {op : BitVec 4} (hop : opField w = op) (hzero : w.extractLsb' 0 20 = 0#20) : encodeZ op = w := by
  rw [encodeZ, ← hop, ← hzero, opField, BitVec.extractLsb'_append_extractLsb'_eq_extractLsb' (by decide)]
  exact BitVec.extractLsb'_eq_self

theorem ofBool_dpField : BitVec.ofBool (dpField w) = w.extractLsb' 12 1 := by
  ext i hi
  obtain rfl : i = 0 := by omega
  simp [dpField]

/-- A format-R word is its six fields side by side (R47). -/
theorem encodeRender_of_fields (hop : opField w = 0x1#4) (hhigh : w.extractLsb' 13 3 = 0#3) (hlow : w.extractLsb' 8 4 = 0#4) :
    encodeRender (valField w) (posField w).toInt (dpField w) = w := by
  rw [encodeRender, BitVec.ofInt_toInt, ofBool_dpField, ← hop, ← hhigh, ← hlow, opField, posField, valField]
  repeat rw [BitVec.extractLsb'_append_extractLsb'_eq_extractLsb' (by decide)]
  exact BitVec.extractLsb'_eq_self

/-- A format-V word is its three fields side by side (R48). -/
theorem encodeWrval_of_fields (hop : opField w = 0x4#4) (hzero : w.extractLsb' 16 4 = 0#4) :
    encodeWrval (valueField w) = w := by
  rw [encodeWrval, ← hop, ← hzero, opField, valueField]
  repeat rw [BitVec.extractLsb'_append_extractLsb'_eq_extractLsb' (by decide)]
  exact BitVec.extractLsb'_eq_self

end Fields

/-- Settles O3: the fields that the decoder has read, its zeros among them, are the whole word. -/
theorem decodedWordEncodesBack : Obligations.DecodedWordEncodesBack := by
  intro w i h
  obtain ⟨hzero, hz⟩ | ⟨hop, hhigh, hlow, rfl⟩ | ⟨hop, hzero, rfl⟩ := decode_ok_cases h
  · obtain ⟨hop, rfl⟩ | ⟨hop, rfl⟩ | ⟨hop, rfl⟩ | ⟨hop, rfl⟩ | ⟨hop, rfl⟩ | ⟨hop, rfl⟩ := hz
    all_goals exact ⟨rfl, congrArg Encoded.command (encodeZ_of_fields hop hzero), rfl⟩
  · exact ⟨positionFits_toInt _, congrArg Encoded.command (encodeRender_of_fields hop hhigh hlow), rfl⟩
  · exact ⟨rfl, congrArg Encoded.command (encodeWrval_of_fields hop hzero), rfl⟩

/-- The decoder and the encoder are inverse on the command port (R57). -/
theorem decode_eq_ok_iff {w : CmdWord} {i : Instr} : decode w = .ok i ↔ i.wf = true ∧ encode i = .command w := by
  constructor
  · intro h
    obtain ⟨hwf, henc, -⟩ := decodedWordEncodesBack w i h
    exact ⟨hwf, henc⟩
  · rintro ⟨hwf, henc⟩
    have hback : decodeEncoded (encode i) = .ok i := encodedInstrDecodesBack i hwf
    rwa [henc] at hback

/-! ## The operands -/

/-- Settles O5: the one case of the decoder's answers that is a `RENDER`, and the one that is a `WRVAL`. -/
theorem decodedOperandsAreTheFields : Obligations.DecodedOperandsAreTheFields := by
  refine ⟨fun w v p d h => ?render, fun w v h => ?wrval⟩
  case render =>
    obtain ⟨-, hz⟩ | ⟨-, -, -, hi⟩ | ⟨-, -, hi⟩ := decode_ok_cases h
    · simp at hz
    · exact Instr.render.inj hi
    · cases hi
  case wrval =>
    obtain ⟨-, hz⟩ | ⟨-, -, -, hi⟩ | ⟨-, -, hi⟩ := decode_ok_cases h
    · simp at hz
    · cases hi
    · exact Instr.wrval.inj hi

/-! ## The opcode map -/

/-- The mask of a command without operands keeps the whole word, so its row is its one encoding (R46, R54). -/
theorem full_mask_iff {i : Instr} {pattern : CmdWord} (hwf : i.wf = true) (henc : encode i = .command pattern) (w : CmdWord) :
    w &&& 0xFFFFFF#24 = pattern ↔ decode w = .ok i := by
  have hmask : w &&& 0xFFFFFF#24 = w := BitVec.and_allOnes
  rw [hmask, decode_eq_ok_iff, henc]
  simp [hwf, eq_comm]

theorem decode_render_iff (w : CmdWord) :
    (∃ v p d, decode w = .ok (.render v p d)) ↔
      opField w = 0x1#4 ∧ w.extractLsb' 13 3 = 0#3 ∧ w.extractLsb' 8 4 = 0#4 := by
  constructor
  · rintro ⟨v, p, d, h⟩
    obtain ⟨-, hz⟩ | ⟨hop, hhigh, hlow, -⟩ | ⟨-, -, hi⟩ := decode_ok_cases h
    · simp at hz
    · exact ⟨hop, hhigh, hlow⟩
    · cases hi
  · rintro ⟨hop, hzeros⟩
    exact ⟨_, _, _, (decode_op1 hop).trans (if_pos hzeros)⟩

theorem decode_wrval_iff (w : CmdWord) :
    (∃ v, decode w = .ok (.wrval v)) ↔ opField w = 0x4#4 ∧ w.extractLsb' 16 4 = 0#4 := by
  constructor
  · rintro ⟨v, h⟩
    obtain ⟨-, hz⟩ | ⟨-, -, -, hi⟩ | ⟨hop, hzero, -⟩ := decode_ok_cases h
    · simp at hz
    · cases hi
    · exact ⟨hop, hzero⟩
  · rintro ⟨hop, hzero⟩
    exact ⟨_, (decode_op4 hop).trans (if_pos hzero)⟩

/-- Two different rows differ in a bit that both masks keep (R54). -/
theorem opcodeMap_rows_agree : ∀ r ∈ opcodeMap, ∀ q ∈ opcodeMap, r.pattern &&& q.mask = q.pattern &&& r.mask → r = q := by
  decide

/-- Settles O4: a row of a command without operands is one word; the other two rows pin the fields the decoder tests; and a word of
two rows makes the rows agree under both masks. -/
theorem opcodeMapSelectsTheCommand : Obligations.OpcodeMapSelectsTheCommand := by
  refine fun w => ⟨full_mask_iff rfl rfl w, (render_mask_iff w).trans (decode_render_iff w).symm, full_mask_iff rfl rfl w,
    full_mask_iff rfl rfl w, (wrval_mask_iff w).trans (decode_wrval_iff w).symm, full_mask_iff rfl rfl w,
    full_mask_iff rfl rfl w, full_mask_iff rfl rfl w, fun r hr q hq hwr hwq => ?overlap⟩
  case overlap =>
    apply opcodeMap_rows_agree r hr q hq
    rw [← hwr, ← hwq, BitVec.and_assoc, BitVec.and_assoc, BitVec.and_comm r.mask]

/-! ## The reserved words -/

/-- The opcodes of the commands without operands (R46, R54). -/
def formatZOpcodes : List (BitVec 4) := [0x0#4, 0x2#4, 0x3#4, 0x5#4, 0x6#4, 0x7#4]

/-- The four ways an opcode is read: none of R54, format Z, format R, format V. -/
theorem opField_cases (w : CmdWord) :
    8 ≤ (opField w).toNat ∨ opField w ∈ formatZOpcodes ∨ opField w = 0x1#4 ∨ opField w = 0x4#4 := by
  generalize opField w = op
  revert op
  decide

theorem decode_of_formatZ {w : CmdWord} (h : opField w ∈ formatZOpcodes) : ∃ i, decode w = decodeZ w i := by
  simp only [formatZOpcodes, List.mem_cons, List.not_mem_nil, or_false] at h
  obtain h | h | h | h | h | h := h
  exacts [⟨_, decode_op0 h⟩, ⟨_, decode_op2 h⟩, ⟨_, decode_op3 h⟩, ⟨_, decode_op5 h⟩, ⟨_, decode_op6 h⟩, ⟨_, decode_op7 h⟩]

/-- The reserved words, class by class (R55). -/
theorem decode_error_iff (w : CmdWord) :
    (∃ e, decode w = .error e) ↔
      8 ≤ (opField w).toNat ∨ (opField w ∈ formatZOpcodes ∧ w.extractLsb' 0 20 ≠ 0#20) ∨
      (opField w = 0x1#4 ∧ (w.extractLsb' 13 3 ≠ 0#3 ∨ w.extractLsb' 8 4 ≠ 0#4)) ∨
      (opField w = 0x4#4 ∧ w.extractLsb' 16 4 ≠ 0#4) := by
  constructor
  · rintro ⟨e, he⟩
    obtain hop | hop | hop | hop := opField_cases w
    · exact .inl hop
    · obtain ⟨i, hi⟩ := decode_of_formatZ hop
      refine .inr (.inl ⟨hop, fun hzero => ?_⟩)
      simp [hi, decodeZ, hzero] at he
    · refine .inr (.inr (.inl ⟨hop, not_and_or.mp fun hzeros => ?_⟩))
      simp [decode_op1 hop, decodeRender, hzeros] at he
    · refine .inr (.inr (.inr ⟨hop, fun hzero => ?_⟩))
      simp [decode_op4 hop, decodeWrval, hzero] at he
  · rintro (hop | ⟨hop, hne⟩ | ⟨hop, hne⟩ | ⟨hop, hne⟩)
    · exact ⟨_, decode_reserved_opcode hop⟩
    · obtain ⟨i, hi⟩ := decode_of_formatZ hop
      exact ⟨_, hi.trans (if_neg hne)⟩
    · exact ⟨_, (decode_op1 hop).trans (if_neg (not_and_or.mpr hne))⟩
    · exact ⟨_, (decode_op4 hop).trans (if_neg hne)⟩

/-! ## Words written out -/

/-- Settles O1: the decoder computes on each of the sixteen words. -/
theorem specWordsDecodeAsWritten : Obligations.SpecWordsDecodeAsWritten :=
  ⟨rfl, rfl, rfl, rfl, rfl, rfl, rfl, rfl, rfl, rfl, rfl, rfl, rfl, rfl, rfl, rfl⟩

/-- Settles O7: the event bits decide which events there are, whatever the time on `now`. -/
theorem eventPortCarriesItsEvents : Obligations.EventPortCarriesItsEvents := fun _ => ⟨rfl, rfl, rfl, rfl⟩

/-- What runs first of an event port: the edge at the port's time if there is one, else the tick (R49, R111). -/
theorem decodeEncoded_event_cases {ev : EvBits} {now : Time} {i : Instr} (h : decodeEncoded (.event ev now) = .ok i) :
    (ev.getLsbD 1 = true ∧ i = .edge now) ∨ (ev.getLsbD 1 = false ∧ ev.getLsbD 0 = true ∧ i = .tick) := by
  cases hedge : ev.getLsbD 1 with
  | true =>
    simp only [decodeEncoded, decodeEvents, hedge] at h
    exact .inl ⟨rfl, (Except.ok.inj h).symm⟩
  | false =>
    cases htick : ev.getLsbD 0 with
    | true =>
      simp only [decodeEncoded, decodeEvents, hedge, htick] at h
      exact .inr ⟨rfl, rfl, (Except.ok.inj h).symm⟩
    | false =>
      simp only [decodeEncoded, decodeEvents, hedge, htick] at h
      cases h

end Sys2Proof
end

section
/-! PROOFS. The encoding family, the step: what it does with a word or an event on the ports (spec/30_encoding.md R49, R55, R60;
spec/43_host_access.md R97), and the host's interface (log 13). -/

namespace Sys2Proof.Machine

/-! ## One step on each thing the ports can ask for -/

theorem step_eq_acceptCommand_of_reserved {s : State} {w : CmdWord} {e : Reserved} (hp : s.inp.pending = .command w)
    (hd : decode w = .error e) : step s = .next s.acceptCommand := by
  simp [step, hp, hd, ignoreReserved]

theorem step_eq_exec_of_edge {s : State} {n : Time} (hp : s.inp.pending = .edge n) :
    step s = exec (.edge n) s.acceptEdge := by
  simp [step, hp]

theorem step_eq_exec_of_tick {s : State} (hp : s.inp.pending = .tick) : step s = exec .tick s.acceptTick := by
  simp [step, hp]

/-- Settles O6: the classes of R55, and the step on a word of one of them, which only takes it off its port. -/
theorem reservedWordsAreExecutedAsNothing : Obligations.ReservedWordsAreExecutedAsNothing := by
  refine fun w => ⟨decode_error_iff w, fun e s hd hrst hcmd hw => ⟨s.acceptCommand, ?_, rfl, rfl, rfl, rfl, rfl⟩⟩
  exact step_eq_acceptCommand_of_reserved (Inputs.pending_eq_command_iff.mpr ⟨hrst, hcmd, hw⟩) hd

/-- Settles O9: with `rst` released and no command left, an edge is what is pending, and the tick if there is no edge. -/
theorem stepRunsThePresentedEvent : Obligations.StepRunsThePresentedEvent := fun _ hrst hcmd =>
  ⟨fun hbtn => step_eq_exec_of_edge (Inputs.pending_eq_edge_iff.mpr ⟨hrst, hcmd, hbtn, rfl⟩),
    fun hbtn htick => step_eq_exec_of_tick (Inputs.pending_eq_tick_iff.mpr ⟨hrst, hcmd, hbtn, htick⟩)⟩

/-! ## The response port -/

@[simp] theorem scanTick_rsp (c : Config) (s : State) : (scanTick c s).rsp = s.rsp :=
  scanTick_keeps c s State.rsp (fun _ _ _ => rfl) fun _ _ => rfl
@[simp] theorem edgeUpdate_rsp (c : Config) (n : Time) (s : State) : (edgeUpdate c n s).rsp = s.rsp :=
  edgeUpdate_keeps c n s State.rsp fun _ => rfl

/-- `TAKE` and `RDSTAT` drive the response port, every other operation leaves it (R60). -/
theorem exec_rsp_cases {i : Instr} {s t : State} (h : exec i s = .next t) :
    (i = .take ∧ t.rsp = some (takeWord s)) ∨ (i = .rdstat ∧ t.rsp = some (statusWord s)) ∨
      (i ≠ .take ∧ i ≠ .rdstat ∧ t.rsp = s.rsp) := by
  cases i with
  | take => obtain rfl := Host.Outcome.next.inj h; exact .inl ⟨rfl, rfl⟩
  | rdstat => obtain rfl := Host.Outcome.next.inj h; exact .inr (.inl ⟨rfl, rfl⟩)
  | _ => obtain rfl := Host.Outcome.next.inj h; exact .inr (.inr (by simp))

/-- Settles O32: taking the word off its port clears the response port, a reserved word does no more, and a command's own answer is
the response lemma's. -/
theorem onlyTakeAndRdstatRespond : Obligations.OnlyTakeAndRdstatRespond := by
  intro s hrst hcmd
  have hp : s.inp.pending = .command s.inp.cmd := Inputs.pending_eq_command_iff.mpr ⟨hrst, hcmd, rfl⟩
  cases hd : decode s.inp.cmd with
  | error e => exact ⟨_, step_eq_acceptCommand_of_reserved hp hd, by simp⟩
  | ok i =>
    obtain ⟨t, ht⟩ := exec_total s.acceptCommand i
    refine ⟨t, (step_eq_exec_of_command hp hd).trans ht, ?_⟩
    obtain ⟨rfl, hrsp⟩ | ⟨rfl, hrsp⟩ | ⟨htake, hrdstat, hrsp⟩ := exec_rsp_cases ht
    · have hword : takeWord s.acceptCommand = _ := takeWord_eq s
      simp [hrsp, hword]
    · simp [hrsp, statusWord]
    · simp [hrsp, htake, hrdstat]

/-! ## The word placed for the next step -/

/-- A table word that decodes lies on the ports, and is what decodes there (log 13). -/
theorem decodeTableWord_eq_some {nbits w : Nat} {i : Instr} (h : decodeTableWord nbits w = some i) :
    ∃ e, tableWordPorts nbits w = some e ∧ decodeEncoded e = .ok i := by
  unfold decodeTableWord at h
  split at h
  next e he =>
    refine ⟨e, he, ?_⟩
    cases hd : decodeEncoded e with
    | ok j => simpa [hd, Except.toOption] using h
    | error r => simp [hd, Except.toOption] at h
  next => cases h

theorem withFetchWord_eq {s : State} {nbits w : Nat} {e : Encoded} (h : tableWordPorts nbits w = some e) :
    s.withFetchWord nbits w = { s with inp := s.inp.presenting e } := by
  simp [State.withFetchWord, h]

theorem tableWordPorts_command (w : Nat) : tableWordPorts 24 w = some (.command (BitVec.ofNat 24 w)) := rfl

/-- Eight bits, where they stand for anything, are the event port (R49). -/
theorem tableWordPorts_event {w : Nat} {e : Encoded} (h : tableWordPorts 8 w = some e) :
    ∃ ev now, e = .event ev now := by
  unfold tableWordPorts at h
  split_ifs at h with h24
  · cases h24
  · exact ⟨_, _, (Option.some.inj h).symm⟩

/-- The cycle that presents an event row's word asks for the word's edge, or for its tick (R49, R111). -/
theorem withFetchWord_pending_event {s : State} {w : Nat} {i : Instr} (h : decodeTableWord 8 w = some i) :
    (i = .tick ∧ (s.withFetchWord 8 w).inp.pending = .tick) ∨
      ∃ n, i = .edge n ∧ (s.withFetchWord 8 w).inp.pending = .edge n := by
  obtain ⟨e, hports, hd⟩ := decodeTableWord_eq_some h
  obtain ⟨ev, n, rfl⟩ := tableWordPorts_event hports
  rw [withFetchWord_eq hports]
  obtain ⟨hedge, rfl⟩ | ⟨hedge, htick, rfl⟩ := decodeEncoded_event_cases hd
  · exact .inr ⟨n, rfl, Inputs.pending_eq_edge_iff.mpr ⟨rfl, rfl, hedge, by simp [hedge]⟩⟩

  · exact .inl ⟨rfl, Inputs.pending_eq_tick_iff.mpr ⟨rfl, rfl, hedge, htick⟩⟩

/-- Settles O16: a command word's cycle asks for that word, an event word's for its edge or its tick. -/
theorem placedWordRunsNext : Obligations.PlacedWordRunsNext := by
  refine fun s w i => ⟨fun h => ?command, fun h hi => ?tick, fun h hi => ?edge⟩
  case command =>
    obtain ⟨e, hports, hd⟩ := decodeTableWord_eq_some h
    obtain rfl := Option.some.inj ((tableWordPorts_command w).symm.trans hports)
    have hp : (s.withFetchWord 24 w).inp.pending = .command (BitVec.ofNat 24 w) := by
      rw [withFetchWord_eq hports]
      exact Inputs.pending_eq_command_iff.mpr ⟨rfl, rfl, rfl⟩
    exact step_eq_exec_of_command hp hd
  case tick =>
    obtain ⟨rfl, hp⟩ | ⟨n, rfl, -⟩ := withFetchWord_pending_event (s := s) h
    · exact step_eq_exec_of_tick hp
    · cases hi
  case edge =>
    obtain ⟨rfl, -⟩ | ⟨n, rfl, hp⟩ := withFetchWord_pending_event (s := s) h
    · exact absurd rfl hi
    · exact step_eq_exec_of_edge hp

end Sys2Proof.Machine
end

section
/-! PROOFS. The display family: what one operation of spec/41_display_driver.md does (R67 to R78), the pins over a step (R130), the
ticks of a scan (R79, R80), and the runs that overwrite the display latches (R70, R82). -/

namespace Sys2Proof.Machine

/-! ## The three phases -/

@[simp] theorem State.rendered_pinTrace (s : State) (lines : SelLines) (levels : SegLines) :
    (s.rendered lines levels).pinTrace =
      s.pinTrace ++ [⟨0b0000#4, s.seg⟩, ⟨0b0000#4, levels⟩, ⟨lines, levels⟩] := by
  simp [State.rendered]

/-! ## RENDER -/

theorem onehot_eq_shiftLeft (p : Nat) : onehot p = 0b0001#4 <<< p := rfl

/-- What a valid position enables: all four lines, or its own (R67, R71). -/
theorem positionLines_valid {pos : Int} (h : pos = -1 ∨ 0 ≤ pos ∧ pos < 4) :
    positionLines build pos = some (if pos = -1 then 0b1111#4 else 0b0001#4 <<< pos.toNat) := by
  obtain rfl | ⟨h0, h4⟩ := h
  · exact positionLines_broadcast
  · rw [positionLines_of_range h0 h4, onehot_eq_shiftLeft, if_neg (by omega)]

/-- Settles O20: the three phases with the position's lines and the glyph's levels. -/
theorem validRenderShowsTheGlyph : Obligations.ValidRenderShowsTheGlyph := by
  intro s v pos dp hv hpos
  have hlt : v.toNat < 17 := Nat.lt_succ_of_le hv
  refine ⟨_, rfl, ?_⟩
  rw [renderDigit_valid hlt (positionLines_valid hpos)]
  exact ⟨segLevels_dp _ _, segLevels_low _ _, rfl, s.rendered_pinTrace _ _, rfl⟩

/-- With an invalid digit value or position `renderDigit` does nothing (R68, R69). -/
theorem renderDigit_invalid {v : Byte} {pos : Int} (h : 16 < v.toNat ∨ (pos ≠ -1 ∧ ¬(0 ≤ pos ∧ pos < 4))) (dp : Bool)
    (s : State) : renderDigit build v pos dp s = s := by
  obtain ⟨hs, -⟩ | ⟨lines, hlt, -, hp, -⟩ := renderDigit_cases build v pos dp s
  · exact hs
  · obtain hv | ⟨hb, hr⟩ := h
    · omega
    · rw [positionLines_invalid hb hr] at hp
      cases hp

/-- Settles O21: an invalid operand stops `renderDigit` before its first phase. -/
theorem invalidRenderChangesNothing : Obligations.InvalidRenderChangesNothing := fun s _ _ dp h =>
  congrArg Host.Outcome.next (renderDigit_invalid h dp s)

/-! ## TICK -/

/-- The digit of weight `10 ^ cur` as a table index (R72, R77). -/
def digitGlyph (dv : Value) (cur : Cursor) : Fin 17 :=
  ⟨(digitAt dv cur).toNat, (digitAt_lt dv cur).trans (by decide)⟩

theorem digitGlyph_val (dv : Value) (cur : Cursor) :
    (digitGlyph dv cur).val = dv.toNat / 10 ^ cur.toNat % 10 := digitAt_toNat dv cur

theorem digitGlyph_le (dv : Value) (cur : Cursor) : (digitGlyph dv cur).val ≤ 9 :=
  Nat.le_of_lt_succ (digitAt_lt dv cur)

/-- The point of position `p` is lit exactly at the configured position with a nonzero precision (R78). -/
theorem dpAt_eq_true_iff (c : Config) (p : Nat) : dpAt c p = true ↔ p = c.dpPosition ∧ c.decimalPrecision ≠ 0 := by
  simp [dpAt]

theorem dpAt_build (p : Nat) : dpAt build p = decide (p = 2) := by
  rw [Bool.eq_iff_iff, dpAt_eq_true_iff, decide_eq_true_iff]
  simp

/-- The latches carry digit `cur` of `dv` on position `cur`, with the point where the machine has it (R72, R80). -/
def State.ShowsDigit (t : State) (dv : Value) (cur : Cursor) : Prop :=
  t.sel = 0b0001#4 <<< cur.toNat ∧ showsGlyph t.seg (digitGlyph dv cur) ∧ t.seg.getLsbD 7 = !decide (cur.toNat = 2)

/-- Scanning is enabled, over the value `dv`, with the cursor at `cur`: all that a tick reads. -/
def State.Scans (s : State) (dv : Value) (cur : Cursor) : Prop :=
  s.scanEn = true ∧ s.dv = dv ∧ s.cursor = cur

/-- A tick shows the cursor's digit and scans on one position lower (R72). -/
theorem State.Scans.tick {s : State} {dv : Value} {cur : Cursor} (h : s.Scans dv cur) :
    (scanTick build s).Scans dv (cur - 1#2) ∧ (scanTick build s).ShowsDigit dv cur := by
  obtain ⟨hen, rfl, rfl⟩ := h
  obtain ⟨hen', hdv, hcur, hsel, hlow, hpoint⟩ := scanTick_effect hen
  exact ⟨⟨hen', hdv, hcur⟩, hsel, hlow, hpoint.trans (congrArg _ (dpAt_build _))⟩

theorem cursor_sub_one_toNat (cur : Cursor) :
    (cur - 1#2).toNat = if cur.toNat = 0 then 3 else cur.toNat - 1 := by
  revert cur
  decide

/-- Settles O26: the latches show the cursor's digit, by the three phases on the cursor's line. -/
theorem effectiveTickShowsTheCursorsDigit : Obligations.EffectiveTickShowsTheCursorsDigit := by
  intro s hen
  obtain ⟨⟨-, -, hcur⟩, hsel, hlow, hpoint⟩ := State.Scans.tick ⟨hen, rfl, rfl⟩
  refine ⟨_, digitGlyph s.dv s.cursor, exec_tick s, digitGlyph_val _ _, digitGlyph_le _ _, hlow, hpoint, hsel, ?cursor, ?phases,
    ?frame⟩
  case cursor => rw [hcur, cursor_sub_one_toNat]
  case phases =>
    rw [scanTick_enabled hen]
    exact s.rendered_pinTrace _ _
  case frame =>
    rw [scanTick_enabled hen]
    rfl

/-- At any place and precision of the point, an effective tick drives bit 7 to the complement of `dpAt`: the operands that a tick
computes are valid, and `renderDigit` is given the point and does not read its configuration (R72, R78). -/
theorem scanTick_point {s : State} (hen : s.scanEn = true) (precision position : Nat) :
    (scanTick { build with decimalPrecision := precision, dpPosition := position } s).seg.getLsbD 7 =
      !dpAt { build with decimalPrecision := precision, dpPosition := position } s.cursor.toNat := by
  have hdigit : (digitAt s.dv s.cursor).toNat < 17 := (digitGlyph s.dv s.cursor).isLt
  have hpos : 0 ≤ (s.cursor.toNat : Int) ∧ (s.cursor.toNat : Int) < 4 :=
    ⟨Int.natCast_nonneg _, by exact_mod_cast s.cursor.isLt⟩
  have hrender : renderDigit { build with decimalPrecision := precision, dpPosition := position } = renderDigit build := rfl
  rw [scanTick, if_pos hen, hrender, renderDigit_valid hdigit (positionLines_valid (.inr hpos))]
  exact segLevels_dp _ _

/-- Settles O27: the machine's own values, and bit 7 of an effective tick at any others. -/
theorem pointIsLitAtTheConfiguredPosition : Obligations.PointIsLitAtTheConfiguredPosition := by
  refine ⟨build_dpPosition, build_decimalPrecision, fun s precision position hen => ?_⟩
  rw [scanTick_point hen, Bool.not_eq_false', dpAt_eq_true_iff]

/-! ## SCANEN, SCANDIS, WRVAL, and TICK while scanning is disabled -/

/-- Settles O23: each writes its flag value and is one record update. -/
theorem scanEnableAndDisableWriteOneFlag : Obligations.ScanEnableAndDisableWriteOneFlag := fun s =>
  ⟨exec_scanen s, exec_scandis s⟩

/-- Settles O24: `WRVAL` is one write of `DV`. -/
theorem wrvalWritesTheValue : Obligations.WrvalWritesTheValue := exec_wrval

/-- Settles O25: `scanTick` does nothing while `SCAN_EN` is 0. -/
theorem disabledTickChangesNothing : Obligations.DisabledTickChangesNothing := fun _ hen =>
  congrArg Host.Outcome.next (scanTick_disabled build hen)

/-! ## The pins over a step -/

/-- From `s` to `t` the pins stand, or are driven through the three phases of one `renderDigit` (R67). -/
def PinsKeptOrRendered (s t : State) : Prop :=
  (t.pins = s.pins ∧ t.pinTrace = s.pinTrace) ∨
    ∃ lines levels, t.pins = ⟨lines, levels⟩ ∧
      t.pinTrace = s.pinTrace ++ [⟨0b0000#4, s.seg⟩, ⟨0b0000#4, levels⟩, ⟨lines, levels⟩]

theorem renderDigit_pins (c : Config) (v : Byte) (pos : Int) (dp : Bool) (s : State) :
    PinsKeptOrRendered s (renderDigit c v pos dp s) := by
  obtain h | ⟨lines, levels, h⟩ := renderDigit_uniform c v pos dp
  · rw [h]; exact .inl ⟨rfl, rfl⟩
  · rw [h]; exact .inr ⟨lines, levels, rfl, s.rendered_pinTrace _ _⟩

theorem scanTick_pins (c : Config) (s : State) : PinsKeptOrRendered s (scanTick c s) := by
  unfold scanTick
  split
  · exact renderDigit_pins c _ _ _ s
  · exact .inl ⟨rfl, rfl⟩

theorem edgeUpdate_pins (c : Config) (n : Time) (s : State) : PinsKeptOrRendered s (edgeUpdate c n s) :=
  .inl ⟨edgeUpdate_keeps c n s State.pins fun _ => rfl, edgeUpdate_keeps c n s State.pinTrace fun _ => rfl⟩

theorem exec_pins {i : Instr} {s t : State} (h : exec i s = .next t) : PinsKeptOrRendered s t := by
  cases i <;> obtain rfl := Host.Outcome.next.inj h
  case render v p d => exact renderDigit_pins build v p d s
  case tick => exact scanTick_pins build s
  case edge n => exact edgeUpdate_pins build n s
  all_goals exact .inl ⟨rfl, rfl⟩

/-- A step outside reset starts the trace anew and keeps or renders the pins. -/
theorem step_pins {s t : State} (hrst : s.inp.rst = false) (h : step s = .next t) :
    PinsKeptOrRendered s.clearOutputs t := by
  obtain ⟨hp, -⟩ | ⟨_, _, -, -, hx⟩ | ⟨_, _, -, -, rfl⟩ | ⟨n, -, rfl⟩ | ⟨-, rfl⟩ | ⟨-, -, rfl⟩ := step_cases h
  · simp [Inputs.pending_eq_reset_iff.mp hp] at hrst
  · exact (exec_pins hx :)
  · exact .inl ⟨rfl, rfl⟩
  · exact edgeUpdate_pins build n s.acceptEdge
  · exact scanTick_pins build s.acceptTick
  · exact .inl ⟨rfl, rfl⟩

/-- Settles O42: pins that stand are a chain of one; the three phases change the segment lines between two dark pin states. -/
theorem pinsNeverShowAGhostGlyph : Obligations.PinsNeverShowAGhostGlyph := by
  intro s t hrst hstep
  obtain ⟨hpins, htrace⟩ | ⟨lines, levels, hpins, htrace⟩ := step_pins hrst hstep
  · rw [htrace, hpins]
    exact ⟨.singleton _, rfl⟩
  · rw [htrace, hpins]
    exact ⟨by simp [noCrossTalk, State.pins], rfl⟩

/-! ## Ticks in a row -/

/-- After `n` ticks the cursor has counted down by `n` (R79). -/
theorem State.Scans.ticks (n : Nat) {s : State} {dv : Value} {cur : Cursor} (h : s.Scans dv cur) :
    ∃ t, runInstrs (List.replicate n .tick) s = .next t ∧ t.Scans dv (cur - BitVec.ofNat 2 n) := by
  induction n generalizing s cur with
  | zero => exact ⟨s, rfl, by simpa using h⟩
  | succ n ih =>
    obtain ⟨hnext, -⟩ := State.Scans.tick (s := s.clearOutputs) h
    obtain ⟨t, ht, hscans⟩ := ih hnext
    exact ⟨t, ht, by rwa [sub_sub, add_comm, ← BitVec.ofNat_add] at hscans⟩

theorem cursor_sub_four : ∀ cur : Cursor, cur - 1#2 - 1#2 - 1#2 - 1#2 = cur := by
  decide

/-- Four effective ticks show the four digits of `DV`, from the cursor's down, and bring the cursor back (R79, R80). -/
theorem State.Scans.four_ticks {s : State} {dv : Value} {cur : Cursor} (h : s.Scans dv cur) :
    ∃ a b c d, exec .tick s = .next a ∧ exec .tick a = .next b ∧ exec .tick b = .next c ∧ exec .tick c = .next d ∧
      d.cursor = cur ∧ a.ShowsDigit dv cur ∧ b.ShowsDigit dv (cur - 1#2) ∧
      c.ShowsDigit dv (cur - 1#2 - 1#2) ∧ d.ShowsDigit dv (cur - 1#2 - 1#2 - 1#2) := by
  obtain ⟨h1, show1⟩ := h.tick
  obtain ⟨h2, show2⟩ := h1.tick
  obtain ⟨h3, show3⟩ := h2.tick
  obtain ⟨⟨-, -, hcur⟩, show4⟩ := h3.tick
  exact ⟨_, _, _, _, exec_tick _, exec_tick _, exec_tick _, exec_tick _, hcur.trans (cursor_sub_four cur), show1, show2, show3,
    show4⟩

/-- Counting down from any cursor, each position comes up once in four (R79). -/
theorem countdown_lights_each_position_once : ∀ (cur : Cursor), ∀ p < 4,
    [0b0001#4 <<< cur.toNat, 0b0001#4 <<< (cur - 1#2).toNat, 0b0001#4 <<< (cur - 1#2 - 1#2).toNat,
      0b0001#4 <<< (cur - 1#2 - 1#2 - 1#2).toNat].count (0b0001#4 <<< p) = 1 := by
  decide

/-- Settles O43: the countdown over any number of ticks, the four positions of four ticks, and position 3 from reset. -/
theorem ticksVisitEveryPositionCyclically : Obligations.TicksVisitEveryPositionCyclically := by
  refine ⟨fun n s hen => ?countdown, fun s hen => ?four, _, _, rfl, rfl, ?first⟩
  case countdown =>
    obtain ⟨t, ht, hent, -, hcur⟩ := State.Scans.ticks n ⟨hen, rfl, rfl⟩
    exact ⟨t, ht, hent, hcur⟩
  case four =>
    obtain ⟨a, b, c, d, ha, hb, hc, hd, hcur, ⟨hsa, -⟩, ⟨hsb, -⟩, ⟨hsc, -⟩, ⟨hsd, -⟩⟩ :=
      State.Scans.four_ticks ⟨hen, rfl, rfl⟩
    refine ⟨a, b, c, d, ha, hb, hc, hd, hcur, ?_⟩
    rw [hsa, hsb, hsc, hsd]
    exact countdown_lights_each_position_once s.cursor
  case first =>
    have hscans : (State.reset.clearOutputs.setScanEn true).Scans 0#16 3#2 := ⟨rfl, rfl, rfl⟩
    obtain ⟨-, hsel, -⟩ := hscans.tick
    exact hsel

/-- Settles O44: `WRVAL` and `SCANEN` leave the cursor at its reset value 3, and from there four ticks show the four digits. -/
theorem bootShowsTheWrittenValue : Obligations.BootShowsTheWrittenValue := by
  intro v
  have hscans : ((State.reset.clearOutputs.setDv v).clearOutputs.setScanEn true).Scans v 3#2 := ⟨rfl, rfl, rfl⟩
  obtain ⟨a, b, c, d, ha, hb, hc, hd, -, ⟨hsa, hga, hpa⟩, ⟨hsb, hgb, hpb⟩, ⟨hsc, hgc, hpc⟩, ⟨hsd, hgd, hpd⟩⟩ :=
    hscans.four_ticks
  refine ⟨_, a, b, c, d, digitGlyph v 3#2, digitGlyph v 2#2, digitGlyph v 1#2, digitGlyph v 0#2, rfl, ha, hb, hc, hd,
    digitGlyph_val v 3#2, digitGlyph_val v 2#2, digitGlyph_val v 1#2, ?units, ?lines, ?points, hga, hgb, hgc, hgd⟩
  case units => simp [digitGlyph_val]
  case lines => rw [hsa, hsb, hsc, hsd]; rfl
  case points => rw [hpa, hpb, hpc, hpd]; rfl

/-! ## Runs that overwrite the display latches -/

/-- Write the display latches, `SCAN_EN`, both or neither. -/
def Arch.write (pins : Option Pins) (en : Option Bool) (a : Arch) : Arch :=
  { a with
    seg := (pins.map Pins.seg).getD a.seg
    sel := (pins.map Pins.sel).getD a.sel
    scanEn := en.getD a.scanEn }

/-- Of two writes one after the other the later one wins, where it writes. -/
theorem Arch.write_write (p q : Option Pins) (d e : Option Bool) (a : Arch) :
    (a.write p d).write q e = a.write (q.or p) (e.or d) := by
  cases q <;> cases e <;> rfl

/-- `run` completes from every state, and what it writes to the architectural state is the same from every state. -/
def Overwrites (run : State → Host.Outcome State Fault Refusal) : Prop :=
  ∃ pins en, ∀ s, ∃ t, run s = .next t ∧ t.arch = s.arch.write pins en

theorem Overwrites.issue {i : Instr} (h : Overwrites (exec i)) : Overwrites (issue i) := by
  obtain ⟨pins, en, hrun⟩ := h
  exact ⟨pins, en, fun s => hrun s.clearOutputs⟩

theorem Overwrites.andThen {f g : State → Host.Outcome State Fault Refusal} (hf : Overwrites f) (hg : Overwrites g) :
    Overwrites fun s => andThen (f s) g := by
  obtain ⟨p, d, hf⟩ := hf
  obtain ⟨q, e, hg⟩ := hg
  refine ⟨q.or p, e.or d, fun s => ?_⟩
  obtain ⟨t, ht, hta⟩ := hf s
  obtain ⟨u, hu, hua⟩ := hg t
  exact ⟨u, by simp only [ht, andThen_next, hu], by rw [hua, hta, Arch.write_write]⟩

theorem Overwrites.runInstrs {is : List Instr} (h : ∀ i ∈ is, Overwrites (exec i)) : Overwrites (runInstrs is) := by
  induction is with
  | nil => exact ⟨none, none, fun s => ⟨s, rfl, rfl⟩⟩
  | cons i is ih => exact (h i (.head _)).issue.andThen (ih fun j hj => h j (.tail _ hj))

/-- Writing the same again changes nothing. -/
theorem Overwrites.idempotent {run : State → Host.Outcome State Fault Refusal} (h : Overwrites run) (s : State) :
    ∃ t u, run s = .next t ∧ run t = .next u ∧ u.arch = t.arch := by
  obtain ⟨pins, en, hrun⟩ := h
  obtain ⟨t, ht, hta⟩ := hrun s
  obtain ⟨u, hu, hua⟩ := hrun t
  refine ⟨t, u, ht, hu, ?_⟩
  rw [hua, hta, Arch.write_write, Option.or_self, Option.or_self]

theorem overwrites_render (v : Byte) (pos : Int) (dp : Bool) : Overwrites (exec (.render v pos dp)) := by
  obtain h | ⟨lines, levels, h⟩ := renderDigit_uniform build v pos dp
  · exact ⟨none, none, fun s => ⟨_, exec_render s v pos dp, by rw [h]; rfl⟩⟩
  · exact ⟨some ⟨lines, levels⟩, none, fun s => ⟨_, exec_render s v pos dp, by rw [h]; rfl⟩⟩

theorem overwrites_scanen : Overwrites (exec .scanen) := ⟨none, some true, fun s => ⟨_, exec_scanen s, rfl⟩⟩

theorem overwrites_scandis : Overwrites (exec .scandis) := ⟨none, some false, fun s => ⟨_, exec_scandis s, rfl⟩⟩

/-- Settles O22: valid or not, a `RENDER` writes the same from every state. -/
theorem renderTwiceIsRenderOnce : Obligations.RenderTwiceIsRenderOnce := fun s v pos dp =>
  (overwrites_render v pos dp).idempotent s

theorem overwrites_renderValue (c : Config) (d3 d2 d1 d0 : Byte) : Overwrites (runInstrs (renderValue c d3 d2 d1 d0)) := by
  refine Overwrites.runInstrs ?_
  simp only [renderValue, List.forall_mem_cons, List.not_mem_nil, IsEmpty.forall_iff, implies_true, and_true]
  exact ⟨overwrites_scandis, overwrites_render _ _ _, overwrites_render _ _ _, overwrites_render _ _ _, overwrites_render _ _ _,
    overwrites_scanen⟩

/-- Settles O57: `RENDERVALUE` is made of `SCANDIS`, `RENDER`s and `SCANEN`, each of which overwrites. -/
theorem renderValueIsIdempotent : Obligations.RenderValueIsIdempotent := fun s d3 d2 d1 d0 =>
  (overwrites_renderValue build d3 d2 d1 d0).idempotent s

end Sys2Proof.Machine
end

section
/-! PROOFS. The debounce family: the window of `EDGE` and its wrap (spec/42_debounce_filter.md R84, R85, R90 to R92), the example of
R94, `TAKE` and `CLRP` (R87, R88), and the filter beside the display (R83). -/

namespace Sys2Proof.Machine

/-! ## The debounce window -/

/-- An edge inside the window of the last accepted one is dropped (R84, R90). -/
theorem edgeUpdate_of_dropped {s : State} {n : Time} (hvalid : s.tsValid = true) (h : (n - s.lastTs).toNat ≤ 200) :
    edgeUpdate build n s = s := by
  refine if_neg fun hacc => ?_
  obtain hfirst | hlate := (edgeAccepted_iff s n).mp hacc
  · simp [hvalid] at hfirst
  · exact absurd h (Nat.not_le.mpr hlate)

/-- Settles O28: the debounce test passes in the first clause and fails in the second. -/
theorem edgeIsAcceptedOutsideTheWindow : Obligations.EdgeIsAcceptedOutsideTheWindow := fun _ _ =>
  ⟨fun hacc => congrArg Host.Outcome.next (edgeUpdate_of_accepted hacc),
    fun hvalid hin => congrArg Host.Outcome.next (edgeUpdate_of_dropped hvalid hin)⟩

/-- The port shows an interval of `d` ms modulo its wrap, from any start (R85, R91). -/
theorem elapsed_toNat (n : Time) (d : Nat) : (n + BitVec.ofNat 32 d - n).toNat = d % 2 ^ 32 := by
  rw [add_sub_cancel_left, BitVec.toNat_ofNat]

section Elapsed

variable {s : State} {n : Time} {d : Nat} (hlast : s.lastTs = n)
include hlast

/-- Only an interval short of a wrap is known from the port to be outside the window (R91). -/
theorem exec_edge_accepted_after (hlate : 200 < d) (hwrap : d < 2 ^ 32) :
    exec (.edge (n + BitVec.ofNat 32 d)) s =
      .next { s with lastTs := n + BitVec.ofNat 32 d, tsValid := true, pressed := true } :=
  (edgeIsAcceptedOutsideTheWindow s _).1 (.inr (by rwa [hlast, elapsed_toNat, Nat.mod_eq_of_lt hwrap]))

/-- An interval is inside the window if what is left of it after the wraps is (R85, R91). -/
theorem exec_edge_dropped_after (hvalid : s.tsValid = true) (hin : d % 2 ^ 32 ≤ 200) :
    exec (.edge (n + BitVec.ofNat 32 d)) s = .next s :=
  (edgeIsAcceptedOutsideTheWindow s _).2 hvalid (by rwa [hlast, elapsed_toNat])

end Elapsed

/-- Settles O51: with `d` the interval in unbounded time, `d` below 2^32 is judged as it is, and of `k * 2^32 + r` what is left is
`r`. -/
theorem edgeJudgedAcrossTheWrap : Obligations.EdgeJudgedAcrossTheWrap := by
  intro s t1 t2 hvalid hlast hle
  obtain ⟨d, rfl⟩ := Nat.exists_eq_add_of_le hle
  rw [Nat.add_sub_cancel_left, BitVec.ofNat_add]
  refine ⟨fun hwrap hlate => ?accepted, fun hin => ?dropped, fun k r hd hr => ?wrapped⟩
  case accepted => rw [exec_edge_accepted_after hlast hlate hwrap, hvalid]
  case dropped => exact exec_edge_dropped_after hlast hvalid ((Nat.mod_le d _).trans hin)
  case wrapped =>
    refine exec_edge_dropped_after hlast hvalid ?_
    rw [hd, Nat.mul_add_mod_self_right]
    exact (Nat.mod_le r _).trans hr

/-! ## Bounces -/

/-- A burst inside the window leaves the architectural state, and so the window itself, as it was (R92). -/
theorem runInstrs_bounces {bounces : List Nat} {s : State} (hvalid : s.tsValid = true) (hin : ∀ b ∈ bounces, b ≤ 200) :
    ∃ u, runInstrs (bounces.map fun b => .edge (s.lastTs + BitVec.ofNat 32 b)) s = .next u ∧ u.arch = s.arch := by
  refine runInstrs_induction (P := fun u => u.arch = s.arch) rfl fun i hi a c ha hc => ?_
  obtain ⟨b, hb, rfl⟩ := List.mem_map.mp hi
  have haValid : a.tsValid = true := (congrArg Arch.tsValid ha).trans hvalid
  have haLast : a.lastTs = s.lastTs := congrArg Arch.lastTs ha
  have hdropped : issue (.edge (s.lastTs + BitVec.ofNat 32 b)) a = .next a.clearOutputs :=
    exec_edge_dropped_after (s := a.clearOutputs) haLast haValid ((Nat.mod_le b _).trans (hin b hb))
  obtain rfl := Host.Outcome.next.inj (hdropped.symm.trans hc)
  exact ha

/-- Settles O52: the accepted edge starts the window at `n`, the burst leaves it there, and `n + k` lies beyond it. -/
theorem bouncesDoNotMoveTheWindow : Obligations.BouncesDoNotMoveTheWindow := by
  intro s n bounces k hacc hin hlate hwrap
  obtain ⟨t, hst, rfl, hvalid⟩ : ∃ t, runInstrs [.edge n] s = .next t ∧ t.lastTs = n ∧ t.tsValid = true :=
    ⟨_, congrArg (andThen · _) ((edgeIsAcceptedOutsideTheWindow s.clearOutputs n).1 hacc), rfl, rfl⟩
  obtain ⟨u, htu, hu⟩ := runInstrs_bounces hvalid hin
  exact ⟨t, u, _, hst, rfl, htu, hu, exec_edge_accepted_after (congrArg Arch.lastTs hu) hlate hwrap, rfl⟩

/-! ## TAKE and CLRP -/

/-- Settles O29: `TAKE`'s word is the flag of the state it was given. -/
theorem takeAnswersAndClears : Obligations.TakeAnswersAndClears := fun s => by
  rw [exec_take, takeWord_eq]
  rfl

/-- Settles O30: `CLRP` is one write of `PRESSED`. -/
theorem clrpClearsTheFlag : Obligations.ClrpClearsTheFlag := exec_clrp

/-- Settles O53: the edge at 0 is the first, 50 lies inside its window and 250 outside, and the `TAKE` between does not touch the
window. -/
theorem debounceExampleAcceptsTwoEdges : Obligations.DebounceExampleAcceptsTwoEdges :=
  ⟨_, _, _, _, _,
    (edgeIsAcceptedOutsideTheWindow State.reset 0#32).1 (.inl rfl), rfl, rfl, rfl,
    (edgeIsAcceptedOutsideTheWindow _ 50#32).2 rfl (by decide), rfl,
    (edgeIsAcceptedOutsideTheWindow _ 250#32).1 (.inr (by decide)), rfl, rfl,
    takeAnswersAndClears _, rfl, rfl,
    (edgeIsAcceptedOutsideTheWindow _ 250#32).1 (.inr (by decide)), rfl, rfl⟩

/-! ## The filter beside the display -/

/-- An update that keeps what the display's operations read and commutes with what they write (R66, R83). -/
structure OutsideDisplay (g : State → State) : Prop where
  scanEn : ∀ s, (g s).scanEn = s.scanEn := by intros; rfl
  dv : ∀ s, (g s).dv = s.dv := by intros; rfl
  cursor : ∀ s, (g s).cursor = s.cursor := by intros; rfl
  rendered : ∀ s lines levels, State.rendered (g s) lines levels = g (State.rendered s lines levels) := by intros; rfl
  setCursor : ∀ s v, State.setCursor (g s) v = g (State.setCursor s v) := by intros; rfl
  setScanEn : ∀ s b, State.setScanEn (g s) b = g (State.setScanEn s b) := by intros; rfl
  setDv : ∀ s v, State.setDv (g s) v = g (State.setDv s v) := by intros; rfl

theorem OutsideDisplay.exec_comm {g : State → State} (h : OutsideDisplay g) {i : Instr} (hi : isDisplay i = true) (s : State) :
    ∃ a, exec i s = .next a ∧ exec i (g s) = .next (g a) := by
  cases i with
  | render v p d => exact ⟨_, rfl, congrArg Host.Outcome.next (renderDigit_comm g build v p d s h.rendered)⟩
  | tick =>
    exact ⟨_, rfl, congrArg Host.Outcome.next (scanTick_comm g build s h.scanEn h.dv h.cursor h.rendered h.setCursor)⟩
  | scanen => exact ⟨_, rfl, congrArg Host.Outcome.next (h.setScanEn s true)⟩
  | scandis => exact ⟨_, rfl, congrArg Host.Outcome.next (h.setScanEn s false)⟩
  | wrval v => exact ⟨_, rfl, congrArg Host.Outcome.next (h.setDv s v)⟩
  | _ => cases hi

theorem edgeUpdate_outsideDisplay (c : Config) (n : Time) : OutsideDisplay (edgeUpdate c n) where
  scanEn := edgeUpdate_scanEn c n
  dv := edgeUpdate_dv c n
  cursor := edgeUpdate_cursor c n
  rendered s lines levels := (edgeUpdate_comm (State.rendered · lines levels) c n s).symm
  setCursor s v := (edgeUpdate_comm (State.setCursor · v) c n s).symm
  setScanEn s b := (edgeUpdate_comm (State.setScanEn · b) c n s).symm
  setDv s v := (edgeUpdate_comm (State.setDv · v) c n s).symm

/-- Every operation of the debounce filter is an update outside the display (R83). -/
theorem exec_debounce_outsideDisplay {j : Instr} (hj : isDebounce j = true) :
    ∃ g, OutsideDisplay g ∧ ∀ s, exec j s = .next (g s) := by
  cases j with
  | edge n => exact ⟨_, edgeUpdate_outsideDisplay build n, fun s => exec_edge s n⟩
  | take => exact ⟨fun s => (s.respond (takeWord s)).setPressed false, {}, exec_take⟩
  | clrp => exact ⟨fun s => s.setPressed false, {}, exec_clrp⟩
  | _ => cases hj

/-- Settles O38: the debounce operation is an update that the display operation commutes with. -/
theorem displayAndDebounceCommute : Obligations.DisplayAndDebounceCommute := by
  intro i j s hi hj
  obtain ⟨g, hg, hexec⟩ := exec_debounce_outsideDisplay hj
  obtain ⟨a, ha, hga⟩ := hg.exec_comm hi s
  exact ⟨a, g s, g a, ha, hexec a, hexec s, hga⟩

end Sys2Proof.Machine
end

section
/-! PROOFS. The host access family: `NOP` and `RDSTAT` (spec/43_host_access.md R95, R96), the pseudo-instructions of R99 to R101 and
the Control Loop's iteration of R102. -/

namespace Sys2Proof.Machine

/-! ## NOP and RDSTAT -/

/-- Settles O19: the arm of `NOP` hands its state on. -/
theorem nopChangesNothing : Obligations.NopChangesNothing := exec_nop

/-- Settles O31: the word is `statusWord`, whose fields lie at R96's bits. -/
theorem rdstatReportsTheState : Obligations.RdstatReportsTheState := fun s =>
  ⟨statusWord s, exec_rdstat s, statusWord_fields s⟩

/-! ## One valid RENDER -/

/-- A valid `RENDER` overwrites the display latches and no other element (R67, R70). -/
theorem issue_render_valid {v : Byte} {pos : Int} {lines : SelLines} (hv : v.toNat < 17)
    (hp : positionLines build pos = some lines) (dp : Bool) (s : State) :
    ∃ t, issue (.render v pos dp) s = .next t ∧
      t.arch = s.arch.write (some ⟨lines, segLevels dp (build.segTable ⟨v.toNat, hv⟩)⟩) none :=
  ⟨_, congrArg Host.Outcome.next (renderDigit_valid hv hp dp s.clearOutputs), rfl⟩

/-! ## LAMPTEST and BLANKALL -/

/-- A pseudo-instruction that is one operation ends as that operation does. -/
theorem runInstrs_singleton {i : Instr} {s t : State} (h : issue i s = .next t) : runInstrs [i] s = .next t := by
  rw [runInstrs_cons, h, andThen_next, runInstrs_nil]

/-- The blank glyph without the point leaves every line off, whatever the open table holds (R64). -/
theorem segLevels_blank : segLevels false (build.segTable 16) = 0xFF#8 := by
  rw [segLevels, segTable_blank_low]
  decide

/-- Settles O58: both are valid broadcast `RENDER`s, of table entries 8 and 16. -/
theorem lampTestAndBlankAllEndStates : Obligations.LampTestAndBlankAllEndStates := by
  refine ⟨by decide, rfl, rfl, fun s => ⟨?lamp, ?blank⟩⟩
  case lamp =>
    obtain ⟨t, ht, ha⟩ := issue_render_valid (v := 8#8) (by decide) positionLines_broadcast true s
    have hseg : t.seg = segLevels true (build.segTable 8) := congrArg Arch.seg ha
    exact ⟨t, runInstrs_singleton ht, by rw [hseg]; exact ha, hseg⟩
  case blank =>
    obtain ⟨t, ht, ha⟩ := issue_render_valid (v := 16#8) (by decide) positionLines_broadcast false s
    refine ⟨t, runInstrs_singleton ht, ?_⟩
    rw [ha, ← segLevels_blank]
    rfl

/-! ## RENDERVALUE -/

/-- With a valid last digit `RENDERVALUE` ends with that digit on position 0 without the point and scanning enabled: whatever the
operations before the last `RENDER` write, it and the `SCANEN` write over (R99). -/
theorem runInstrs_renderValue (d3 d2 d1 : Byte) {d0 : Byte} (h : d0.toNat < 17) (s : State) :
    ∃ t, runInstrs (renderValue build d3 d2 d1 d0) s = .next t ∧
      t.arch = s.arch.write (some ⟨0b0001#4, segLevels false (build.segTable ⟨d0.toNat, h⟩)⟩) (some true) := by
  have hbefore : Overwrites (runInstrs [.scandis, .render d3 3 (dpAt build 3), .render d2 2 (dpAt build 2),
      .render d1 1 (dpAt build 1)]) := by
    refine Overwrites.runInstrs ?_
    simp only [List.forall_mem_cons, List.not_mem_nil, IsEmpty.forall_iff, implies_true, and_true]
    exact ⟨overwrites_scandis, overwrites_render _ _ _, overwrites_render _ _ _, overwrites_render _ _ _⟩
  obtain ⟨pins, en, hrun⟩ := hbefore
  obtain ⟨a, ha, haArch⟩ := hrun s
  obtain ⟨b, hb, hbArch⟩ := issue_render_valid h (positionLines_of_range (pos := 0) (by decide) (by decide)) (dpAt build 0) a
  refine ⟨b.clearOutputs.setScanEn true, ?run, ?arch⟩
  case run =>
    refine (runInstrs_append [_, _, _, _] [_, _] s).trans ?_
    rw [ha, andThen_next, runInstrs_cons, hb]
    rfl
  case arch =>
    have hscanen : (b.clearOutputs.setScanEn true).arch = b.arch.write none (some true) := rfl
    rw [hscanen, hbArch, haArch, Arch.write_write, Arch.write_write]
    rfl

/-- Settles O56: the point flags of the four positions are computed, and the end state is the run's. -/
theorem renderValueEndState : Obligations.RenderValueEndState := by
  intro s d3 d2 d1 d0 h
  obtain ⟨t, ht, ha⟩ := runInstrs_renderValue d3 d2 d1 (Nat.lt_succ_of_le h) s
  have hseg : t.seg = segLevels false (build.segTable ⟨d0.toNat, Nat.lt_succ_of_le h⟩) := congrArg Arch.seg ha
  refine ⟨rfl, t, ht, ?_⟩
  rw [hseg]
  exact ⟨segLevels_dp _ _, segLevels_low _ _, ha⟩

/-! ## The two forms of consume -/

/-- Bit 0 of `TAKE`'s word is the flag (R60, R87). -/
theorem takeWord_bit (s : State) : (takeWord s).getLsbD 0 = s.pressed := by
  cases h : s.pressed <;> simp [takeWord, h]

/-- A run completes, since each of its operations does (R103). -/
theorem runInstrs_total (is : List Instr) (s : State) : ∃ t, runInstrs is s = .next t := by
  obtain ⟨t, ht, -⟩ := runInstrs_induction (P := fun _ => True) (is := is) (s := s) trivial fun _ _ _ _ _ _ => trivial
  exact ⟨t, ht⟩

/-- What the non-atomic consume goes on with: the flag it read, in the state after the clear it makes of a press (R100). -/
theorem consumeThen_nonAtomic_run (between : List Instr) (s : State) :
    ∃ u, runInstrs between (s.clearOutputs.respond (statusWord s)) = .next u ∧
      ∀ k, consumeThen (.nonAtomic between) k s =
        k s.pressed (if s.pressed then u.clearOutputs.setPressed false else u) := by
  obtain ⟨u, hu⟩ := runInstrs_total between (s.clearOutputs.respond (statusWord s))
  obtain ⟨hbit, -⟩ := statusWord_fields s
  refine ⟨u, hu, fun k => ?_⟩
  have hread : (s.clearOutputs.respond (statusWord s)).rspPort.getLsbD 0 = s.pressed := hbit
  rw [consumeThen_nonAtomic, issue_rdstat, andThen_next, hu, andThen_next, hread]
  cases s.pressed <;> rfl

/-- Without a press there is nothing to clear. -/
theorem State.arch_of_not_pressed {s : State} (h : s.pressed = false) : s.arch = { s.arch with pressed := false } := by
  rw [← h]
  rfl

/-- With nothing between its read and its clear, either consume goes on with the old flag, with the flag clear and every other
element as it was (R100). -/
theorem consumeThen_undisturbed {form : ConsumeForm} (hform : form = .atomic ∨ form = .nonAtomic []) (s : State) :
    ∃ a, a.arch = { s.arch with pressed := false } ∧ ∀ k, consumeThen form k s = k s.pressed a := by
  obtain rfl | rfl := hform
  · refine ⟨(s.clearOutputs.respond (takeWord s)).setPressed false, rfl, fun k => ?_⟩
    have hread : ((s.clearOutputs.respond (takeWord s)).setPressed false).rspPort.getLsbD 0 = s.pressed := takeWord_bit s
    rw [consumeThen_atomic, issue_take, andThen_next, hread]
  · obtain ⟨u, hu, hk⟩ := consumeThen_nonAtomic_run [] s
    obtain rfl := Host.Outcome.next.inj hu
    refine ⟨_, ?_, hk⟩
    cases hp : s.pressed
    · exact State.arch_of_not_pressed hp
    · rfl

/-- Settles O50: `CONSUME` is a `TAKE`, and `CONSUME.NA` alone goes on with the state as it is. -/
theorem consumeLeavesTheFlagClear : Obligations.ConsumeLeavesTheFlagClear := by
  refine fun s => ⟨⟨_, runInstrs_singleton (issue_take s), rfl, congrArg some (takeWord_eq s)⟩, ?nonAtomic⟩
  case nonAtomic =>
    obtain ⟨a, ha, hk⟩ := consumeThen_undisturbed (form := .nonAtomic []) (.inr rfl) s
    exact ⟨a, hk _, ha⟩

/-! ## The Control Loop -/

/-- The levels of a value's last decimal digit without the point. -/
def lastDigitLevels (v : Value) : SegLines := segLevels false (build.segTable (digitGlyph v 0#2))

theorem showsGlyph_lastDigitLevels {v : Value} {d : Fin 17} (hd : d.val = v.toNat % 10) :
    showsGlyph (lastDigitLevels v) d := by
  obtain rfl : d = digitGlyph v 0#2 := Fin.ext (by simp [digitGlyph_val, hd])
  exact segLevels_low _ _

/-- What the iteration does after its consume (R102): a press that was read stores the sample, which is shown; without one the
host's copy is shown. -/
theorem controlLoop_after_consume (sample copy : Value) (press : Bool) (a : State) :
    ∃ t, runInstrs (if press then .wrval sample :: renderValueOf build sample else renderValueOf build copy) a = .next t ∧
      t.arch = { a.arch with
        dv := if press then sample else a.dv
        seg := lastDigitLevels (if press then sample else copy), sel := 0b0001#4, scanEn := true } := by
  have hdigit (v : Value) : (digitAt v 0#2).toNat < 17 := (digitAt_lt v 0#2).trans (by decide)
  cases press with
  | false => exact runInstrs_renderValue _ _ _ (hdigit copy) a
  | true => exact runInstrs_renderValue _ _ _ (hdigit sample) (a.clearOutputs.setDv sample)

/-- Settles O59: after either consume the host goes on with the flag it read; the flag is clear then, since a press that was read is
cleared last. -/
theorem controlLoopStoresTheSample : Obligations.ControlLoopStoresTheSample := by
  refine fun s sample copy => ⟨fun form hform => ?undisturbed, fun between hp => ?disturbed⟩
  case undisturbed =>
    obtain ⟨a, ha, hk⟩ := consumeThen_undisturbed hform s
    obtain ⟨t, ht, hta⟩ := controlLoop_after_consume sample copy s.pressed a
    have hdv : a.dv = s.dv := congrArg Arch.dv ha
    rw [ha, hdv] at hta
    have hseg : t.seg = lastDigitLevels (if s.pressed then sample else copy) := congrArg Arch.seg hta
    exact ⟨t, (hk _).trans ht, congrArg Arch.pressed hta, congrArg Arch.scanEn hta, congrArg Arch.sel hta,
      congrArg Arch.cursor hta, congrArg Arch.lastTs hta, congrArg Arch.tsValid hta, congrArg Arch.dv hta,
      fun d hd => hseg ▸ showsGlyph_lastDigitLevels hd⟩
  case disturbed =>
    obtain ⟨u, -, hk⟩ := consumeThen_nonAtomic_run between s
    rw [hp] at hk
    obtain ⟨t, ht, hta⟩ := controlLoop_after_consume sample copy true (u.clearOutputs.setPressed false)
    have hseg : t.seg = lastDigitLevels sample := congrArg Arch.seg hta
    exact ⟨t, (hk _).trans ht, congrArg Arch.pressed hta, congrArg Arch.scanEn hta, congrArg Arch.sel hta,
      congrArg Arch.dv hta, fun d hd => hseg ▸ showsGlyph_lastDigitLevels hd⟩

end Sys2Proof.Machine
end

section
/-! PROOFS. The exceptions family: every operation completes (spec/60_exceptions.md R103), the ignored conditions (R104), the order
within a cycle (R111), the timebase (R116). -/

namespace Sys2Proof.Machine

/-! ## When a step completes -/

theorem Inputs.pending_eq_nothing_iff {p : Inputs} :
    p.pending = .nothing ↔ p.rst = false ∧ p.cmdValid = false ∧ p.btnFall = false ∧ p.tick = false := by
  refine ⟨?_, fun ⟨hrst, hcmd, hbtn, htick⟩ => Inputs.pending_eq_nothing hrst hcmd hbtn htick⟩
  unfold Inputs.pending
  split_ifs <;> simp_all

/-- A cycle with anything on its ports has something to do. -/
theorem Inputs.pending_ne_nothing {p : Inputs}
    (h : p.rst = true ∨ p.cmdValid = true ∨ p.btnFall = true ∨ p.tick = true) : p.pending ≠ .nothing := by
  intro hp
  obtain ⟨hrst, hcmd, hbtn, htick⟩ := Inputs.pending_eq_nothing_iff.mp hp
  simp [hrst, hcmd, hbtn, htick] at h

theorem step_eq_resetCycle {s : State} (hp : s.inp.pending = .reset) : step s = .next s.resetCycle := by
  simp [step, hp]

/-- Every step completes but the clock edge at which the count goes back (R103, R116). -/
theorem step_total {s : State} (h : ¬(s.inp.pending = .nothing ∧ s.nowGoesBack = true)) : ∃ t, step s = .next t := by
  cases hp : s.inp.pending with
  | reset => exact ⟨_, step_eq_resetCycle hp⟩
  | command w =>
    cases hd : decode w with
    | ok i =>
      rw [step_eq_exec_of_command hp hd]
      exact exec_total _ i
    | error e => exact ⟨_, step_eq_acceptCommand_of_reserved hp hd⟩
  | edge n => exact ⟨_, step_eq_exec_of_edge hp⟩
  | tick => exact ⟨_, step_eq_exec_of_tick hp⟩
  | nothing => exact ⟨_, step_eq_clockEdge hp (by simpa [hp] using h)⟩

/-- The one refusal of the model (R116). -/
theorem step_eq_refused_iff {s : State} :
    step s = .refused .nowWentBack ↔ s.inp.pending = .nothing ∧ s.nowGoesBack = true := by
  refine ⟨fun hrefused => ?_, fun ⟨hp, hback⟩ => by simp [step, hp, hback]⟩
  by_contra hother
  obtain ⟨t, ht⟩ := step_total hother
  cases ht.symm.trans hrefused

/-- Settles O17: `exec` has an answer in each of its arms, and the one step that is refused has nothing on the ports. -/
theorem everyOperationCompletes : Obligations.EveryOperationCompletes :=
  ⟨fun i s => exec_total s i, fun _ hports => step_total fun ⟨hp, _⟩ => Inputs.pending_ne_nothing hports hp⟩

/-! ## The order within a cycle -/

/-- Settles O10: each operation keeps the ports, so the edge and then the tick are what is left after it. -/
theorem cycleRunsCommandThenEdgeThenTick : Obligations.CycleRunsCommandThenEdgeThenTick := by
  intro s i hrst hcmd hbtn htick hd
  obtain ⟨a, ha⟩ := exec_total s.acceptCommand i
  obtain ⟨haInp, haFeed⟩ := exec_ports ha
  obtain ⟨b, hb⟩ := exec_total a.acceptEdge (.edge s.inp.now)
  obtain ⟨hbInp, hbFeed⟩ := exec_ports hb
  obtain ⟨c, hc⟩ := exec_total b.acceptTick .tick
  obtain ⟨hcInp, hcFeed⟩ := exec_ports hc
  simp only [State.acceptCommand_inp, State.acceptEdge_inp, State.acceptTick_inp] at haInp hbInp hcInp
  rw [haInp] at hbInp
  rw [hbInp] at hcInp
  have hpCommand : s.inp.pending = .command s.inp.cmd := Inputs.pending_eq_command_iff.mpr ⟨hrst, hcmd, rfl⟩
  have hpEdge : a.inp.pending = .edge s.inp.now := by
    rw [haInp]
    exact Inputs.pending_eq_edge_iff.mpr ⟨hrst, rfl, hbtn, rfl⟩
  have hpTick : b.inp.pending = .tick := by
    rw [hbInp]
    exact Inputs.pending_eq_tick_iff.mpr ⟨hrst, rfl, rfl, htick⟩
  exact ⟨a, b, c, (step_eq_exec_of_command hpCommand hd).trans ha, ha, (step_eq_exec_of_edge hpEdge).trans hb, hb,
    (step_eq_exec_of_tick hpTick).trans hc, hc, hcInp, hcFeed.trans (hbFeed.trans haFeed)⟩

/-! ## The timebase -/

/-- The same state at another millisecond count of the platform. -/
def State.withMs (s : State) (m : Nat) : State := { s with inp.ms := m }

/-- No operation reads the count: an edge's time is its operand. -/
theorem exec_withMs (i : Instr) (s : State) (m : Nat) :
    ∃ t, exec i s = .next t ∧ exec i (s.withMs m) = .next (t.withMs m) := by
  cases i with
  | render v p d => exact ⟨_, rfl, congrArg Host.Outcome.next (renderDigit_comm (State.withMs · m) build v p d s)⟩
  | tick => exact ⟨_, rfl, congrArg Host.Outcome.next (scanTick_comm (State.withMs · m) build s)⟩
  | edge n => exact ⟨_, rfl, congrArg Host.Outcome.next (edgeUpdate_comm (State.withMs · m) build n s)⟩
  | _ => exact ⟨_, rfl, rfl⟩

/-- With a reset or a command to come first, or without an edge, the count does not show in what is pending. -/
theorem State.withMs_pending {s : State} (h : s.inp.rst = true ∨ s.inp.cmdValid = true ∨ s.inp.btnFall = false) (m : Nat) :
    (s.withMs m).inp.pending = s.inp.pending := by
  obtain h | h | h := h <;> simp [State.withMs, Inputs.pending, h]

/-- A step that finds the same thing pending at another count does the same there. -/
theorem step_withMs {s : State} {m : Nat} (hsame : (s.withMs m).inp.pending = s.inp.pending)
    (hsome : s.inp.pending ≠ .nothing) : ∃ t, step s = .next t ∧ step (s.withMs m) = .next (t.withMs m) := by
  cases hp : s.inp.pending with
  | reset => exact ⟨_, step_eq_resetCycle hp, step_eq_resetCycle (hsame.trans hp)⟩
  | command w =>
    cases hd : decode w with
    | ok i =>
      rw [step_eq_exec_of_command hp hd, step_eq_exec_of_command (hsame.trans hp) hd]
      exact exec_withMs i s.acceptCommand m
    | error e =>
      exact ⟨_, step_eq_acceptCommand_of_reserved hp hd, step_eq_acceptCommand_of_reserved (hsame.trans hp) hd⟩
  | edge n =>
    rw [step_eq_exec_of_edge hp, step_eq_exec_of_edge (hsame.trans hp)]
    exact exec_withMs (.edge n) s.acceptEdge m
  | tick =>
    rw [step_eq_exec_of_tick hp, step_eq_exec_of_tick (hsame.trans hp)]
    exact exec_withMs .tick s.acceptTick m
  | nothing => exact absurd hp hsome

/-- Settles O18: only a clock edge moves the count, `pending` reads it for an edge alone, and the one refusal is the clock edge at
which it goes back. -/
theorem timebaseNeverGoesBack : Obligations.TimebaseNeverGoesBack := by
  refine ⟨Inputs.now_toNat, fun _ _ => step_ms_le, fun s t hrst hstep => ?reset, fun s m hports => ?unread,
    fun s => ⟨?refused, fun hne => ?other⟩⟩
  case reset =>
    have hreset : step s = .next s.resetCycle := step_eq_resetCycle (Inputs.pending_eq_reset_iff.mpr hrst)
    obtain rfl := Host.Outcome.next.inj (hreset.symm.trans hstep)
    simp
  case unread =>
    exact step_withMs (State.withMs_pending (hports.imp_right (.imp_right And.left)) m)
      (Inputs.pending_ne_nothing (hports.imp_right (.imp_right fun h => .inr h.right)))
  case refused =>
    rw [step_eq_refused_iff, Inputs.pending_eq_nothing_iff, State.nowGoesBack_iff]
    simp only [and_assoc]
  case other => exact step_total fun h => hne (step_eq_refused_iff.mpr h)

/-! ## The ignored conditions -/

/-- Settles O37: the two invalid `RENDER`s, the dropped edge and the disabled tick are no-ops of their operations; a reserved word is
only taken off its port. -/
theorem ignoredConditionsHaveNoEffect : Obligations.IgnoredConditionsHaveNoEffect := by
  intro s
  refine ⟨fun v pos dp hv => ?digit, fun v pos dp hbroadcast hrange => ?position, fun e hrst hcmd hd => ?reserved,
    fun n => ?bounce, disabledTickChangesNothing s⟩
  case digit => exact invalidRenderChangesNothing s v pos dp (.inl hv)
  case position => exact invalidRenderChangesNothing s v pos dp (.inr ⟨hbroadcast, by omega⟩)
  case reserved =>
    have hp : s.inp.pending = .command s.inp.cmd := Inputs.pending_eq_command_iff.mpr ⟨hrst, hcmd, rfl⟩
    exact ⟨_, step_eq_acceptCommand_of_reserved hp hd, s.acceptCommand_arch, s.acceptCommand_rsp⟩
  case bounce =>
    obtain ⟨-, hdropped⟩ := edgeIsAcceptedOutsideTheWindow s n
    exact hdropped

end Sys2Proof.Machine
end

section
/-! PROOFS. The family of reset and hazards: the reset cycle (spec/70_reset_and_hazards.md R121, R122), the unbracketed `RENDER`
(R126), the window of the non-atomic consume (R128). -/

namespace Sys2Proof.Machine

/-! ## Reset -/

theorem step_eq_resetCycle_of_rst {s : State} (hrst : s.inp.rst = true) : step s = .next s.resetCycle :=
  step_eq_resetCycle (Inputs.pending_eq_reset_iff.mpr hrst)

/-- Nothing of the reset cycle is left to run (R122), so its end comes next. -/
theorem step_resetCycle {s : State} (hms : ∀ c rest, s.feed = c :: rest → s.inp.ms ≤ c.ms) :
    step s.resetCycle = .next s.resetCycle.clockEdge :=
  step_eq_clockEdge (Inputs.pending_eq_nothing rfl rfl rfl rfl) (State.nowGoesBack_eq_false hms)

/-- Settles O13: the reset cycle is a step of its own, the clock edge after it takes the next cycle, and that cycle's command is
what is pending then. -/
theorem resetCycleEndsAndKeepsLaterCycles : Obligations.ResetCycleEndsAndKeepsLaterCycles := by
  refine fun s hrst => ⟨s.resetCycle, step_eq_resetCycle_of_rst hrst, rfl, s.resetCycle_feed, fun c rest hfeed hms => ?_⟩
  have hedge : step s.resetCycle = .next s.resetCycle.clockEdge := step_resetCycle fun c' rest' hfeed' => by
    obtain ⟨rfl, -⟩ := List.cons.inj (hfeed.symm.trans hfeed')
    exact hms
  have hinp : s.resetCycle.clockEdge.inp = c := by simp [hfeed]
  refine ⟨s.resetCycle.clockEdge, hedge, hinp, by simp [hfeed], rfl, fun i hreleased hcmd hd => ?_⟩
  refine step_eq_exec_of_command (w := c.cmd) ?_ hd
  rw [hinp]
  exact Inputs.pending_eq_command_iff.mpr ⟨hreleased, hcmd, rfl⟩

/-- No operation sets the cursor to a chosen value: it stays, or a tick counts it down (R72, R122). -/
theorem exec_cursor_kept_or_counted {i : Instr} {s t : State} (h : exec i s = .next t) :
    t.cursor = s.cursor ∨ t.cursor = s.cursor - 1#2 := by
  obtain hkept | rfl := exec_cursor_kept_or_tick h
  · exact .inl hkept
  · obtain rfl := Host.Outcome.next.inj h
    cases hen : s.scanEn with
    | false => exact .inl (by rw [scanTick_disabled build hen])
    | true =>
      obtain ⟨-, -, hcur, -⟩ := scanTick_effect hen
      exact .inr hcur

/-- No operation clears `TS_VALID` (R122). -/
theorem exec_keeps_tsValid {i : Instr} {s t : State} (h : exec i s = .next t) (hs : s.tsValid = true) : t.tsValid = true := by
  obtain ⟨-, hkept⟩ | ⟨-, hset⟩ := exec_stamp_kept_or_edge h
  · exact hkept.trans hs
  · exact hset

/-- Settles O12: the reset cycle writes the reset state's values; any other step keeps the architectural state or runs one
operation on it. -/
theorem resetCycleForcesResetValues : Obligations.ResetCycleForcesResetValues := by
  refine ⟨rfl, fun s hrst => ?reset, fun s t hrst hstep => ?other⟩
  case reset => exact ⟨_, step_eq_resetCycle_of_rst hrst, rfl, rfl, rfl, rfl, rfl⟩
  case other =>
    obtain ⟨hreset, -⟩ | ⟨-, ha | ⟨i, u, -, hu, hx⟩⟩ := step_arch_cases hstep
    · simp [hrst] at hreset
    · exact ⟨(congrArg Arch.tsValid ha).trans, .inl (congrArg Arch.cursor ha)⟩
    · have hvalid : u.tsValid = s.tsValid := congrArg Arch.tsValid hu
      have hcur : u.cursor = s.cursor := congrArg Arch.cursor hu
      exact ⟨fun hs => exec_keeps_tsValid hx (hvalid.trans hs), hcur ▸ exec_cursor_kept_or_counted hx⟩

/-! ## The unbracketed RENDER -/

theorem markIf_eq_nil_iff {b : Bool} {v : Violation} : markIf b v = [] ↔ b = false := by
  cases b <;> simp [markIf]

theorem stepViolations_of_command {s : State} {w : CmdWord} {i : Instr} (hp : s.inp.pending = .command w)
    (hd : decode w = .ok i) : stepViolations s = instrViolations build s i := by
  simp [stepViolations, hp, hd]

/-- A `RENDER` is unmarked exactly if its operands are valid and scanning is disabled (U1, U4, U6). -/
theorem render_unmarked_iff {c : Config} {s : State} {v : Byte} {pos : Int} {dp : Bool} :
    instrViolations c s (.render v pos dp) = [] ↔
      v.toNat ≤ c.digitMax ∧ (∃ lines, positionLines c pos = some lines) ∧ s.scanEn = false := by
  simp [instrViolations, markIf_eq_nil_iff, Option.isSome_iff_exists]

/-- Settles O60: valid operands make the `RENDER` do its three phases, and a valid position enables some line. -/
theorem unmarkedRenderTakesEffect : Obligations.UnmarkedRenderTakesEffect := by
  intro s v pos d hrst hcmd hd hunmarked
  have hp : s.inp.pending = .command s.inp.cmd := Inputs.pending_eq_command_iff.mpr ⟨hrst, hcmd, rfl⟩
  rw [stepViolations_of_command hp hd, render_unmarked_iff] at hunmarked
  obtain ⟨hv, ⟨lines, hlines⟩, hen⟩ := hunmarked
  have hlt : v.toNat < 17 := Nat.lt_succ_of_le hv
  have hstep : step s = .next (s.acceptCommand.rendered lines (segLevels d (build.segTable ⟨v.toNat, hlt⟩))) := by
    rw [step_eq_exec_of_command hp hd, exec_render, renderDigit_valid hlt hlines]
  obtain ⟨-, hlit⟩ := positionLines_legal hlines
  exact ⟨_, hstep, hen, hlit, segLevels_dp _ _, ⟨v.toNat, hlt⟩, rfl, segLevels_low _ _⟩

/-! ## The window of the non-atomic consume -/

/-- Settles O49: the host clears the press it read, whatever the edge between has set since; `TAKE` clears before the edge, which
the next `TAKE` reports. -/
theorem nonAtomicConsumeLosesTheEdge : Obligations.NonAtomicConsumeLosesTheEdge := by
  refine fun s n hpressed hacc => ⟨?lost, ?kept⟩
  case lost =>
    obtain ⟨u, hu, hk⟩ := consumeThen_nonAtomic_run [.edge n] s
    have hedge : issue (.edge n) (s.clearOutputs.respond (statusWord s)) = .next _ :=
      (edgeIsAcceptedOutsideTheWindow (s.clearOutputs.respond (statusWord s)).clearOutputs n).1 hacc
    obtain rfl := Host.Outcome.next.inj ((runInstrs_singleton hedge).symm.trans hu)
    have hclear := hk fun _ => .next
    rw [hpressed] at hclear
    exact ⟨_, hclear, rfl, rfl, rfl⟩
  case kept =>
    obtain ⟨hreported, -⟩ := acceptedEdgeIsReportedOnce
    obtain ⟨t, hrun, hrsp, -⟩ :=
      hreported [] ((s.clearOutputs.respond (takeWord s)).setPressed false) n hacc List.not_mem_nil List.not_mem_nil
    exact ⟨t, hrun, hrsp⟩

end Sys2Proof.Machine
end
